-- ==== Sys2Proof/Word.lean ====
section
/-! DEFINITION. The words the Packet Codec handles: bytes, and the 16- and 32-bit patterns of the STATUS payload.
R11: every register value is an unsigned bit pattern, and no rule reads one as signed. -/
namespace Sys2Proof

/-- R11, R41: a byte is 8 bits, and it is the unit of both frame spaces. -/
abbrev Byte := BitVec 8

/-- R7: the status word and the error mask are 16 bits wide. -/
abbrev Half := BitVec 16

/-- R140: the elapsed-time placeholder and the wake counter are 32-bit patterns. -/
abbrev Word := BitVec 32

end Sys2Proof
end

