-- ==== Sys2Proof/Config.lean ====
section
/-! DEFINITION. What an implementation fixes: the constants of R7, the parameters of R8 with the constraints of R9, R28
and R211, and the free values that stand for answers of the environment nobody has supplied (R16). -/
namespace Sys2Proof

/-- R7: a frame shorter than this is not decoded. -/
def minFrame : Nat := 3
/-- R7: the hardware payload ceiling, in bytes. -/
def maxFrame : Nat := 32
/-- R7: the bound of the Session Guard. -/
def maxDepth : Nat := 2
/-- R7, R103: the device id that every node accepts. -/
def broadcastId : BitVec 5 := 31
/-- R7: PING is opcode 2 (fixed by the source's worked example). -/
def opcPing : Byte := 0x02
/-- R7: PONG is opcode 3 (fixed by the source's worked example). -/
def opcPong : Byte := 0x03
/-- R7, R44: the error-present bit of the status word is bit 0. -/
def sErr : Fin 16 := 0

/-- R211: the eight error kinds. -/
inductive ErrorKind where
  | version        -- E_VERSION
  | unknownCmd     -- E_UNKNOWN_CMD
  | seq            -- E_SEQ
  | unexpectedCmd  -- E_UNEXPECTED_CMD
  | cannotDeliver  -- E_CANNOT_DELIVER
  | depth          -- E_DEPTH
  | encCmd         -- E_ENC_CMD
  | encSize        -- E_ENC_SIZE
deriving DecidableEq, Repr

/-- R8, R28: the parameters the source leaves open. They are read-only to the block. -/
structure Config where
  /-- `CFG_DEVICE_ID`, 0..30. -/
  deviceId : BitVec 5
  /-- `PROTO_VERSION`, compared on receive and emitted on transmit (R10). -/
  protoVersion : BitVec 3
  /-- `OPC_NOP`. -/
  opcNop : Byte
  /-- `OPC_STATUS`. -/
  opcStatus : Byte
  /-- `OPC_RESET`. -/
  opcReset : Byte
  /-- `S_RUNTIME`. -/
  sRuntime : Fin 16
  /-- `S_BATT`. -/
  sBatt : Fin 16
  /-- `S_LOWBATT`. -/
  sLowBatt : Fin 16
  /-- `S_HUMTEMP`. -/
  sHumTemp : Fin 16
  /-- `ebit(E_VERSION)`. -/
  eVersion : Fin 16
  /-- `ebit(E_UNKNOWN_CMD)`. -/
  eUnknownCmd : Fin 16
  /-- `ebit(E_SEQ)`. -/
  eSeq : Fin 16
  /-- `ebit(E_UNEXPECTED_CMD)`. -/
  eUnexpectedCmd : Fin 16
  /-- `ebit(E_CANNOT_DELIVER)`. -/
  eCannotDeliver : Fin 16
  /-- `ebit(E_DEPTH)`. -/
  eDepth : Fin 16
  /-- `ebit(E_ENC_CMD)`. -/
  eEncCmd : Fin 16
  /-- `ebit(E_ENC_SIZE)`. -/
  eEncSize : Fin 16
deriving DecidableEq, Repr

/-- The defaults of R8, R63, R66 and R211 (decisions D1 to D5). -/
def Config.default : Config where
  deviceId := 1
  protoVersion := 0
  opcNop := 0x00
  opcStatus := 0x01
  opcReset := 0x04
  sRuntime := 1
  sBatt := 2
  sLowBatt := 3
  sHumTemp := 4
  eVersion := 0
  eUnknownCmd := 1
  eSeq := 2
  eUnexpectedCmd := 3
  eCannotDeliver := 4
  eDepth := 5
  eEncCmd := 6
  eEncSize := 7

/-- R211: the bit of the error mask that an error kind sets. -/
def Config.ebit (c : Config) : ErrorKind → Fin 16
  | .version => c.eVersion
  | .unknownCmd => c.eUnknownCmd
  | .seq => c.eSeq
  | .unexpectedCmd => c.eUnexpectedCmd
  | .cannotDeliver => c.eCannotDeliver
  | .depth => c.eDepth
  | .encCmd => c.eEncCmd
  | .encSize => c.eEncSize

/-- R9: the five opcode values, which must differ pairwise. -/
def Config.opcodes (c : Config) : List Byte := [c.opcNop, c.opcStatus, opcPing, opcPong, c.opcReset]

/-- R8: the five positions of the status word that have a name. -/
def Config.statusBits (c : Config) : List (Fin 16) := [sErr, c.sRuntime, c.sBatt, c.sLowBatt, c.sHumTemp]

/-- R211: the eight positions of the error mask that have a name. -/
def Config.errorBits (c : Config) : List (Fin 16) :=
  [c.eVersion, c.eUnknownCmd, c.eSeq, c.eUnexpectedCmd, c.eCannotDeliver, c.eDepth, c.eEncCmd, c.eEncSize]

/-- R8, R9, R28, R211: the configurations a model accepts. The device id is not the broadcast id; opcodes, status bits and
error bits are each pairwise distinct (the named status bits other than `S_ERR` therefore lie in 1..15). -/
abbrev Config.legal (c : Config) : Prop :=
  c.deviceId ≠ broadcastId ∧ c.opcodes.Nodup ∧ c.statusBits.Nodup ∧ c.errorBits.Nodup

/-- R193: the transceiver's two answers to `Transmit`. -/
inductive TransmitAnswer where
  | ok
  | fail
deriving DecidableEq, Repr, Inhabited

/-- R16, R193 (DESIGN CHOICE, log entry 4): the answer to the `n`-th draw that the environment has not supplied. FREE VALUE. -/
opaque Config.freeTransmit : Nat → TransmitAnswer

/-- R16, R194 (DESIGN CHOICE, log entry 4): the answer of `DataReady` to the `n`-th draw not supplied. FREE VALUE. -/
opaque Config.freeReady : Nat → Bool

/-- R16, R195 (DESIGN CHOICE, log entry 4): bytes of which `Receive` delivers the first 32 at most, at the `n`-th draw not
supplied. FREE VALUE. -/
opaque Config.freeReceive : Nat → List Byte

/-- R32, R36 (DESIGN CHOICE, log entry 2): after the `n`-th reset, what an offset of `tx` holds that nothing has written since: any
value. FREE VALUE. -/
opaque Config.freeTx : Nat → Nat → Byte

end Sys2Proof
end

