-- ==== Sys2Proof/Syntax.lean ====
section
/-! DEFINITION. The instructions: one constructor for each row of the opcode table. A received command record carries its
payload byte as an `Option`, because a record whose payload lies beyond the frame is a form of its own (R121). -/
namespace Sys2Proof

/-- R140: the status record a STATUS request carries, bit patterns the block copies verbatim (R148). -/
structure StatusRecord where
  sw : Half
  elapsed : Word
  wake : Word
  batt : Half
  hum : Half
  temp : Half
deriving DecidableEq, Repr

/-- R62, R63: the command records, received (`Rx` and the controller's commands) and transmitted (`Tx`). -/
inductive Instr where
  /-- NOP, format OP0 (R122). -/
  | nop
  /-- STATUS on receive (R125). -/
  | statusRx
  /-- PING, format OP1: the echo id, or none when the record is truncated (R121, R123). -/
  | ping (echo : Option Byte)
  /-- PONG on receive, format OP1: the discarded byte, or none when truncated (R121, R124). -/
  | pongRx (echo : Option Byte)
  /-- RESET, format OP1: the countdown, or none when truncated (R121, R126). -/
  | reset (count : Option Byte)
  /-- Any other opcode on receive (R127). -/
  | unknownRx (opcode : Byte)
  /-- STATUS on transmit, format OPS (R145 to R149). -/
  | statusTx (p : StatusRecord)
  /-- PONG on transmit, format OPP (R150). -/
  | pongTx (data : List Byte)
  /-- Any other command on transmit (R151). -/
  | unsupportedTx (cmd : Byte)
deriving DecidableEq, Repr

/-- R65: what a STATUS frame carries after its opcode. A field whose status bit is unset is not there at all. -/
structure StatusWire where
  sw : Half
  mask : Option Half
  runtime : Option (Word × Word)
  batt : Option Half
  humTemp : Option (Half × Half)
deriving DecidableEq, Repr

/-- R154: the one record of an outbound frame, as its receiver reads it. -/
inductive OutRecord where
  | status (w : StatusWire)
  | pong (data : List Byte)
deriving DecidableEq, Repr

end Sys2Proof
end

