-- ==== Sys2Proof/WellFormed.lean ====
section
/-! DEFINITION. Which instructions have an encoding of their own. The checks are those of the opcode table: the catch-all rows
stand for no opcode that has a row, and a transmitted PONG fits its frame. -/
namespace Sys2Proof

/-- R68, R127: UNKNOWN.rx stands for the bytes that are none of the five opcodes. -/
abbrev unknownOpcode (c : Config) (op : Byte) : Prop := op ∉ c.opcodes

/-- R69, R151: UNSUPPORTED.tx stands for the commands that are neither STATUS nor PONG. -/
abbrev unsupportedCommand (c : Config) (cmd : Byte) : Prop := cmd ≠ c.opcStatus ∧ cmd ≠ opcPong

/-- R150, R152: header, command byte and payload fit the payload ceiling, so at most 29 bytes of payload. -/
abbrev pongFits (data : List Byte) : Prop := 3 + data.length ≤ maxFrame

/-- The instructions that have an encoding under the opcode map of `c`. -/
def Instr.wellFormed (c : Config) : Instr → Bool
  | .nop => true
  | .statusRx => true
  | .ping _ => true
  | .pongRx _ => true
  | .reset _ => true
  | .unknownRx op => decide (unknownOpcode c op)
  | .statusTx _ => true
  | .pongTx data => decide (pongFits data)
  | .unsupportedTx cmd => decide (unsupportedCommand c cmd)

/-- Received records (the rows with direction rx): what the command stream of a frame decodes to. -/
def Instr.isReceived : Instr → Bool
  | .nop => true
  | .statusRx => true
  | .ping _ => true
  | .pongRx _ => true
  | .reset _ => true
  | .unknownRx _ => true
  | .statusTx _ => false
  | .pongTx _ => false
  | .unsupportedTx _ => false

/-- R121: the truncated forms, which can only be the last record of a frame. -/
def Instr.isTruncated : Instr → Bool
  | .ping none => true
  | .pongRx none => true
  | .reset none => true
  | .nop => false
  | .statusRx => false
  | .ping (some _) => false
  | .pongRx (some _) => false
  | .reset (some _) => false
  | .unknownRx _ => false
  | .statusTx _ => false
  | .pongTx _ => false
  | .unsupportedTx _ => false

end Sys2Proof
end

