-- ==== Sys2Proof/Decode.lean ====
section
/-! DEFINITION. Bytes to instructions and back: byte order (R42), the header byte (R43), the decoder of a received command
stream (R62, R63, R120, R121), the encoder of both directions, and the reader of an outbound frame's record (R65, R67). -/
namespace Sys2Proof

/-! ### Byte order -/

/-- R42, R13: the `n` bytes of a field, least significant first. -/
def leBytes : (n : Nat) → BitVec (8 * n) → List Byte
  | 0, _ => []
  | n + 1, v => v.setWidth 8 :: leBytes n ((v >>> 8).setWidth (8 * n))

/-- R13, R42: the number that little-endian bytes stand for. -/
def leNat : List Byte → Nat
  | [] => 0
  | b :: bs => b.toNat + 256 * leNat bs

/-- R13, R42: the 16-bit field whose bytes, lowest offset first, are `lo` and `hi`. -/
def half (lo hi : Byte) : Half := hi ++ lo

/-- R42 (decision D6): the 32-bit field with the given bytes, lowest offset first. -/
def word (b0 b1 b2 b3 : Byte) : Word := (b3 ++ b2 ++ b1 ++ b0 : BitVec (8 + 8 + 8 + 8))

/-! ### The header byte -/

/-- R43, R102: the device id, bits 4..0 of byte 0. -/
def headerId (b0 : Byte) : BitVec 5 := b0.extractLsb' 0 5

/-- R43, R104: the protocol version, bits 7..5 of byte 0. -/
def headerVersion (b0 : Byte) : BitVec 3 := b0.extractLsb' 5 3

/-- R43, R142: byte 0 of a frame, `(version << 5) | id`. -/
def headerByte (version : BitVec 3) (id : BitVec 5) : Byte := (version.zeroExtend 8 <<< 5) ||| id.zeroExtend 8

/-! ### Received records -/

/-- Why a decoder has no record to give. -/
inductive DecodeReject where
  /-- There is no opcode byte: the stream is empty. -/
  | noOpcode
deriving DecidableEq, Repr

/-- What the decoder answers: a record and the bytes after it, or a rejection by name. -/
inductive Decoded where
  | record (i : Instr) (rest : List Byte)
  | reject (why : DecodeReject)
deriving DecidableEq, Repr

/-- R62, R121: a record of format OP1 takes the byte after its opcode; without one it is truncated. -/
def takeArg (mk : Option Byte → Instr) : List Byte → Decoded
  | [] => .record (mk none) []
  | a :: rest => .record (mk (some a)) rest

/-- R120: the opcode, all 8 bits of it, selects the record. Every byte has a meaning (R68), so only the empty stream is
rejected. The bytes are those from the cursor to the end of the received frame. -/
def decode (c : Config) : List Byte → Decoded
  | [] => .reject .noOpcode
  | op :: rest =>
    if op = c.opcNop then .record .nop rest
    else if op = opcPing then takeArg .ping rest
    else if op = opcPong then takeArg .pongRx rest
    else if op = c.opcReset then takeArg .reset rest
    else if op = c.opcStatus then .record .statusRx rest
    else .record (.unknownRx op) rest

/-- R153: which transmit record a command byte selects. -/
def txInstr (c : Config) (cmd : Byte) (p : StatusRecord) (data : List Byte) : Instr :=
  if cmd = c.opcStatus then .statusTx p
  else if cmd = opcPong then .pongTx data
  else .unsupportedTx cmd

/-! ### The encoder -/

/-- One bit of the status word. -/
def statusBit (sw : Half) (i : Fin 16) : Bool := sw.getLsbD i.val

/-- R145: the status word as serialised; the error bit is set when any error is. -/
def mergeErrorBit (errs sw : Half) : Half := sw ||| (if errs ≠ 0 then 1#16 <<< sErr.val else 0)

/-- R149: the length of a whole STATUS frame whose serialised status word is `sw`. -/
def statusLength (c : Config) (sw : Half) : Nat :=
  5 + 2 * (statusBit sw sErr).toNat + 8 * (statusBit sw c.sRuntime).toNat + 2 * (statusBit sw c.sBatt).toNat
    + 4 * (statusBit sw c.sHumTemp).toNat

/-- R150: the length of a whole PONG frame. -/
def pongLength (data : List Byte) : Nat := 3 + data.length

/-- R145 to R148: what a STATUS carries, when the errors reported are `errs`. -/
def statusWire (c : Config) (errs : Half) (p : StatusRecord) : StatusWire :=
  let sw := mergeErrorBit errs p.sw
  { sw := sw
    mask := if statusBit sw sErr then some errs else none
    runtime := if statusBit sw c.sRuntime then some (p.elapsed, p.wake) else none
    batt := if statusBit sw c.sBatt then some p.batt else none
    humTemp := if statusBit sw c.sHumTemp then some (p.hum, p.temp) else none }

/-- The bytes of a field that may be absent. -/
def optBytes {α : Type} (f : α → List Byte) : Option α → List Byte
  | none => []
  | some v => f v

/-- R65, R146, R147: the payload bytes of a STATUS, in the order of the table. -/
def statusBytes (w : StatusWire) : List Byte :=
  leBytes 2 w.sw ++ optBytes (leBytes 2) w.mask
    ++ optBytes (fun r => leBytes 4 r.1 ++ leBytes 4 r.2) w.runtime
    ++ optBytes (leBytes 2) w.batt
    ++ optBytes (fun h => leBytes 2 h.1 ++ leBytes 2 h.2) w.humTemp

/-- R62, R63: the bytes of a record, its opcode first. `errs` is the error mask a STATUS reports (R145, R147); no other record
depends on it. A truncated record is its opcode alone (R121); UNSUPPORTED.tx writes nothing (R151). -/
def encode (c : Config) (errs : Half) : Instr → List Byte
  | .nop => [c.opcNop]
  | .statusRx => [c.opcStatus]
  | .ping echo => opcPing :: echo.toList
  | .pongRx echo => opcPong :: echo.toList
  | .reset count => c.opcReset :: count.toList
  | .unknownRx op => [op]
  | .statusTx p => c.opcStatus :: statusBytes (statusWire c errs p)
  | .pongTx data => opcPong :: data
  | .unsupportedTx _ => []

/-- R62, R67: the length of a record, from its format. -/
def recordLength (c : Config) (errs : Half) : Instr → Nat
  | .nop => 1
  | .statusRx => 1
  | .ping echo => if echo.isSome then 2 else 1
  | .pongRx echo => if echo.isSome then 2 else 1
  | .reset count => if count.isSome then 2 else 1
  | .unknownRx _ => 1
  | .statusTx p => statusLength c (mergeErrorBit errs p.sw) - 2
  | .pongTx data => 1 + data.length
  | .unsupportedTx _ => 0

/-! ### Reading an outbound record, as its receiver does -/

/-- A 16-bit field at the front of the bytes. -/
def takeHalf : List Byte → Option (Half × List Byte)
  | lo :: hi :: rest => some (half lo hi, rest)
  | [] => none
  | [_] => none

/-- A 32-bit field at the front of the bytes. -/
def takeWord : List Byte → Option (Word × List Byte)
  | b0 :: b1 :: b2 :: b3 :: rest => some (word b0 b1 b2 b3, rest)
  | [] => none
  | [_] => none
  | [_, _] => none
  | [_, _, _] => none

/-- Two fields in a row. -/
def takeTwo {α β : Type} (f : List Byte → Option (α × List Byte)) (g : List Byte → Option (β × List Byte))
    (bs : List Byte) : Option ((α × β) × List Byte) :=
  match f bs with
  | none => none
  | some (a, rest) =>
    match g rest with
    | none => none
    | some (b, rest') => some ((a, b), rest')

/-- R65: a field that is there exactly when its status bit is set. -/
def takeIf {α : Type} (present : Bool) (f : List Byte → Option (α × List Byte)) (bs : List Byte) :
    Option (Option α × List Byte) :=
  if present then
    match f bs with
    | none => none
    | some (a, rest) => some (some a, rest)
  else some (none, bs)

/-- R67: a STATUS payload is parsed by its bit mask, and nothing may follow the last field (R154). -/
def parseStatus (c : Config) (bs : List Byte) : Option StatusWire :=
  match takeHalf bs with
  | none => none
  | some (sw, r0) =>
    match takeIf (statusBit sw sErr) takeHalf r0 with
    | none => none
    | some (mask, r1) =>
      match takeIf (statusBit sw c.sRuntime) (takeTwo takeWord takeWord) r1 with
      | none => none
      | some (runtime, r2) =>
        match takeIf (statusBit sw c.sBatt) takeHalf r2 with
        | none => none
        | some (batt, r3) =>
          match takeIf (statusBit sw c.sHumTemp) (takeTwo takeHalf takeHalf) r3 with
          | none => none
          | some (humTemp, r4) =>
            if r4 = [] then some { sw := sw, mask := mask, runtime := runtime, batt := batt, humTemp := humTemp } else none

/-- R154, R67: the record of an outbound frame, from the bytes at offset 2 on. -/
def parseOutbound (c : Config) : List Byte → Option OutRecord
  | [] => none
  | op :: rest =>
    if op = c.opcStatus then (parseStatus c rest).map .status
    else if op = opcPong then some (.pong rest)
    else none

/-! ### The opcode table's words -/

/-- The bytes of a word of the opcode table: the first byte is bits 7..0 and the second bits 15..8. Bits above `nbits` are
zero, and two bytes are the longest received record. A row of no bits has no byte. -/
def tableBytes (nbits w : Nat) : List Byte :=
  if nbits = 0 then [] else [BitVec.ofNat 8 (w % 2 ^ nbits), BitVec.ofNat 8 (w % 2 ^ nbits / 256)]

/-- The record the decoder reads from a word of the opcode table, under the default opcode map (R8). -/
def decodeTableWord (nbits w : Nat) : Option Instr :=
  match decode Config.default (tableBytes nbits w) with
  | .record i _ => some i
  | .reject _ => none

end Sys2Proof
end

