-- ==== Sys2Proof/Machine/State.lean ====
section
/-! DEFINITION. The machine's state as plain data: the registers of R21 to R27, the configuration of R28, the context stack of
R29 to R31, the transmit frame of R32, the open sessions of R33, and what the environment has supplied and been given (R190).
Then the reasons a step can stop, and the state after reset (R36, R240). -/
namespace Sys2Proof.Machine

/-! ### Memory -/

/-- R40, R41: a frame space, as (offset, byte) pairs. The canonical form is `Memory.wf`. -/
abbrev Memory := List Host.Cell

/-- What an offset that is not listed holds: nothing that was written. Of a receive frame, that is no byte at all (R30). Of `tx`
it is a free value, which `State.txByte` supplies (R32; DESIGN CHOICE, log entry 2). -/
def Memory.unlisted (_ : Nat) : Option Byte := none

/-- The canonical form: offsets strictly rising. `Memory.read` gives no value at an unlisted offset, so no entry can equal it. -/
abbrev Memory.wf (m : Memory) : Prop := (m.map Prod.fst).Pairwise (· < ·)

/-! ### Contexts and sessions -/

/-- R29 to R31: one decode in progress. -/
structure Context where
  /-- The received bytes, offsets 0..`RX_LEN`-1. -/
  rx : Memory
  /-- `RX_LEN`. -/
  rxLen : Nat
  /-- `CUR`, the cursor. -/
  cur : Nat
deriving DecidableEq, Repr

/-- Where a decode stands in R111: before the gates, or in the record loop (DEDUCED, log entry 9). -/
inductive DecodeStage where
  | gates
  | records
deriving DecidableEq, Repr

/-- R170: the states of the session state machine. -/
inductive Phase where
  | enter
  | reject
  | encode
  | transmit
  | poll
  | receive
  | decode (stage : DecodeStage)
  | exit
  | done
deriving DecidableEq, Repr

/-- R140, R191: a request. The command selects which payload is used: the status record for STATUS, the byte string for PONG,
neither for any other command. -/
structure Request where
  cmd : Byte
  status : StatusRecord
  data : List Byte
deriving DecidableEq, Repr

/-- R33: an open session. -/
structure Session where
  phase : Phase
  request : Request
deriving DecidableEq, Repr

/-! ### The environment -/

/-- R200: the registers the host may read. -/
inductive HostReg where
  | errCur
  | errPrev
  | anyError
  | rstCnt
  | lastRx
  | lastTx
deriving DecidableEq, Repr

/-- R190: what the host may ask for. -/
inductive HostOp where
  | session (r : Request)
  | cycleEnd
  | countdownTick
  | errSet (mask : Half)
  | reset
  | read (r : HostReg)
deriving DecidableEq, Repr

/-- R190: what a host operation returns. A register value is zero-extended to 16 bits. -/
inductive HostResult where
  | reboot (b : Bool)
  | value (r : HostReg) (v : Half)
deriving DecidableEq, Repr

/-- The environment's side of the boundary (R190): not state of the block. Queues are read from the front. -/
structure Env where
  /-- Operations issued and not yet started (R202). -/
  hostOps : List HostOp
  /-- Answers `Transmit` will get (R193). -/
  transmitAnswers : List TransmitAnswer
  /-- Answers `DataReady` will get (R194). -/
  readyAnswers : List Bool
  /-- Byte strings `Receive` will get (R195). -/
  receiveAnswers : List (List Byte)
  /-- How many draws were answered by a free value (log entry 4). -/
  drawn : Nat
  /-- How many resets the block has taken; selects the free values that `tx` then holds (log entry 2). -/
  resets : Nat
  /-- The frames handed to `Transmit`, oldest first (R193). -/
  sent : List (List Byte)
  /-- What host operations returned, oldest first. -/
  results : List HostResult
  /-- A reset asked for from outside the block (R241, R242). -/
  resetLine : Bool
deriving DecidableEq, Repr

/-! ### State -/

/-- R20: the one record that holds all state. -/
structure State where
  /-- The configuration (R28). -/
  cfg : Config
  /-- `LAST_RX` (R21). -/
  lastRx : Byte
  /-- `LAST_TX` (R22). -/
  lastTx : Byte
  /-- `ERR_CUR` (R23). -/
  errCur : Half
  /-- `ERR_PREV` (R24). -/
  errPrev : Half
  /-- `RST_CNT` (R26). -/
  rstCnt : Byte
  /-- `DEPTH` (R27). -/
  depth : Nat
  /-- The context stack, innermost first (R29). -/
  ctxs : List Context
  /-- The open sessions, innermost first (R33). -/
  sessions : List Session
  /-- `tx` (R32). -/
  tx : Memory
  /-- `TX_LEN` (R32). -/
  txLen : Nat
  /-- The environment's side (R190). -/
  env : Env
deriving DecidableEq, Repr

/-- Why the machine stops with a fault. No state that meets `Sys2Proof.Safety.Inv` raises one. -/
inductive Fault where
  /-- A read of the receive frame at or beyond `RX_LEN` (R13). Raised by the gates and by fetching a record. Safe. -/
  | rxOutOfBounds
  /-- `Transmit` of more than the 32 bytes that `tx` has (R32, R40). Raised by the TRANSMIT state. Safe. -/
  | txOutOfBounds
  /-- A session is in DECODE and the context stack is empty (R29). Raised by the gates and by fetching a record. Safe. -/
  | noContext
deriving DecidableEq, Repr

/-- Why the machine gives a step no meaning. -/
inductive Refusal where
  /-- An instruction without a meaning. Raised by no arm of this model. Safe. -/
  | notModelled (mnemonic : String)
  /-- The configuration breaks R9, R28 or R211, which a model refuses. Raised by every step. Safe. -/
  | illegalConfig
  /-- `Receive` delivered more than 32 bytes, which a model refuses (R195). Raised by the RECEIVE state. Safe. -/
  | receiveTooLong
deriving DecidableEq, Repr

/-- The outcome of a step or of a meaning. -/
abbrev Result := Host.Outcome State Fault Refusal

/-- An environment that has supplied nothing and been given nothing. -/
def Env.empty : Env where
  hostOps := []
  transmitAnswers := []
  readyAnswers := []
  receiveAnswers := []
  drawn := 0
  resets := 0
  sent := []
  results := []
  resetLine := false

/-- R36, R240: the state after reset. The configuration is the spec's defaults (log entry 1); `tx` and `TX_LEN` are left
unspecified by the spec: nothing is listed in `tx`, so each of its bytes is a free value (log entry 2), and `TX_LEN` is that of
log entry 3. -/
def State.reset : State where
  cfg := Config.default
  lastRx := 0
  lastTx := 0
  errCur := 0
  errPrev := 0
  rstCnt := 0
  depth := 0
  ctxs := []
  sessions := []
  tx := []
  txLen := 0
  env := Env.empty

end Sys2Proof.Machine
end

