-- ==== Sys2Proof/Machine/Flags.lean ====
section
/-! DEFINITION. The flags: the bits of the error mask (R37, R211), `any_error()` (R25) and the conditions that set a bit. -/
namespace Sys2Proof.Machine

/-- R14, R211: the mask of one error kind, `1 << ebit(E)`. -/
def errorMask (c : Config) (e : ErrorKind) : Half := 1#16 <<< (c.ebit e).val

/-- R25: `any_error()`, a combinational read of both masks. -/
def State.anyError (s : State) : Half := s.errCur ||| s.errPrev

/-- R106: the sequence byte the next inbound frame should carry; the addition wraps. -/
def State.expectedSeq (s : State) : Byte := s.lastRx + 1

end Sys2Proof.Machine
end

