-- ==== Sys2Proof/Machine/Ops.lean ====
section
/-! DEFINITION. The named operations: memory, registers, the error mechanism (`raise` and the end of a decode), the context
stack, the session stack, and the ports. -/
namespace Sys2Proof.Machine

/-! ### Memory -/

/-- The byte at an offset. -/
def Memory.read : Memory → Nat → Option Byte
  | [], a => Memory.unlisted a
  | (b, v) :: m, a => if a = b then some v else Memory.read m a

/-- Write one byte, keeping the offsets strictly rising. -/
def Memory.write : Memory → Nat → Byte → Memory
  | [], a, v => [(a, v)]
  | (b, w) :: m, a, v =>
    if a < b then (a, v) :: (b, w) :: m
    else if a = b then (a, v) :: m
    else (b, w) :: Memory.write m a v

/-- R13: write consecutive bytes, the first at the lowest offset. -/
def Memory.writeBytes (m : Memory) (a : Nat) : List Byte → Memory
  | [] => m
  | b :: bs => Memory.writeBytes (m.write a b) (a + 1) bs

/-- Read consecutive bytes; none when one of them has no value. -/
def Memory.readBytes (m : Memory) (a : Nat) : Nat → Option (List Byte)
  | 0 => some []
  | n + 1 =>
    match m.read a, Memory.readBytes m (a + 1) n with
    | some b, some bs => some (b :: bs)
    | some _, none => none
    | none, _ => none

/-- A frame space that holds exactly the given bytes from offset 0 on. -/
def Memory.ofBytes (bs : List Byte) : Memory := Memory.writeBytes [] 0 bs

/-- R13: `MemWrite(addr, n, v)` on a frame space, least significant byte at `addr` (R42). -/
def Memory.memWrite (m : Memory) (addr n : Nat) (v : BitVec (8 * n)) : Memory := m.writeBytes addr (leBytes n v)

/-! ### Registers: one update for each field (R12) -/

/-- `LAST_RX <- v`. -/
def State.setLastRx (s : State) (v : Byte) : State := { s with lastRx := v }
/-- `LAST_TX <- v`. -/
def State.setLastTx (s : State) (v : Byte) : State := { s with lastTx := v }
/-- `ERR_CUR <- v`. -/
def State.setErrCur (s : State) (v : Half) : State := { s with errCur := v }
/-- `ERR_PREV <- v`. -/
def State.setErrPrev (s : State) (v : Half) : State := { s with errPrev := v }
/-- `RST_CNT <- v`. -/
def State.setRstCnt (s : State) (v : Byte) : State := { s with rstCnt := v }
/-- `DEPTH <- v`. -/
def State.setDepth (s : State) (v : Nat) : State := { s with depth := v }
/-- The context stack becomes `v`. -/
def State.setCtxs (s : State) (v : List Context) : State := { s with ctxs := v }
/-- The open sessions become `v`. -/
def State.setSessions (s : State) (v : List Session) : State := { s with sessions := v }
/-- `tx` becomes `v`. -/
def State.setTx (s : State) (v : Memory) : State := { s with tx := v }
/-- `TX_LEN <- v`. -/
def State.setTxLen (s : State) (v : Nat) : State := { s with txLen := v }
/-- The environment's side becomes `v`. -/
def State.setEnv (s : State) (v : Env) : State := { s with env := v }

/-! ### The error mechanism (R14, R210): no vector, no saved pc; a bit, and the end of an operation -/

/-- R14: `raise E` sets the bit of `E` in `ERR_CUR` and transfers no control. -/
def State.raise (s : State) (e : ErrorKind) : State := s.setErrCur (s.errCur ||| errorMask s.cfg e)

/-! ### The session stack (R33, R170) -/

/-- The innermost session moves to the state `p`. -/
def State.setPhase (s : State) (p : Phase) : State :=
  match s.sessions with
  | [] => s
  | top :: rest => s.setSessions ({ top with phase := p } :: rest)

/-- A new innermost session, at ENTER, that serves `r` (R191, R192). -/
def State.openSession (s : State) (r : Request) : State := s.setSessions ({ phase := .enter, request := r } :: s.sessions)

/-- The request of a PONG reply, `Session(OPC_PONG, data, |data|)` (R192). The status record is not used (R140). -/
def Request.pong (data : List Byte) : Request :=
  { cmd := opcPong, status := { sw := 0, elapsed := 0, wake := 0, batt := 0, hum := 0, temp := 0 }, data := data }

/-! ### The context stack (R29, R31) -/

/-- R100: push the context of a received frame, its cursor at 0. -/
def State.pushFrame (s : State) (f : List Byte) : State :=
  s.setCtxs ({ rx := Memory.ofBytes f, rxLen := f.length, cur := 0 } :: s.ctxs)

/-- `pop ctx`. -/
def State.popCtx (s : State) : State := s.setCtxs s.ctxs.tail

/-- R15: `pc <- t`, the cursor of the innermost context. -/
def State.setCur (s : State) (t : Nat) : State :=
  match s.ctxs with
  | [] => s
  | ctx :: rest => s.setCtxs ({ ctx with cur := t } :: rest)

/-- `pc <- CUR + n`. -/
def State.advanceCur (s : State) (n : Nat) : State :=
  match s.ctxs with
  | [] => s
  | ctx :: rest => s.setCtxs ({ ctx with cur := ctx.cur + n } :: rest)

/-- R110, R219: a decode ends, normally, silently or by `abort`. Its context is popped and control returns to its session,
which goes to EXIT. What was already written stays written (R112). -/
def State.endDecode (s : State) : State := s.popCtx.setPhase .exit

/-! ### The transmit frame (R32, R153) -/

/-- R142 to R150: the bytes of a frame go to `tx` from offset 0 on, and `TX_LEN <- len`. -/
def State.storeFrame (s : State) (bytes : List Byte) (len : Nat) : State :=
  (s.setTx (s.tx.writeBytes 0 bytes)).setTxLen len

/-- R32, R13: the byte at an offset of `tx`: the last one written there, or a free value where none was written since the last
reset (log entry 2). -/
def State.txByte (s : State) (a : Nat) : Byte :=
  match s.tx.read a with
  | some b => b
  | none => Config.freeTx s.env.resets a

/-- R193: the frame that `Transmit` hands over, `tx[0..TX_LEN-1]`. -/
def State.txFrame (s : State) : List Byte := (List.range s.txLen).map s.txByte

/-! ### The ports (R16, R193 to R195) -/

/-- R193: the answer to `Transmit`: the next one supplied, else a free value (log entry 4). -/
def Env.drawTransmit (e : Env) : TransmitAnswer × Env :=
  match e.transmitAnswers with
  | [] => (Config.freeTransmit e.drawn, { e with drawn := e.drawn + 1 })
  | a :: rest => (a, { e with transmitAnswers := rest })

/-- R194: the answer of `DataReady`: the next one supplied, else a free value (log entry 4). -/
def Env.drawReady (e : Env) : Bool × Env :=
  match e.readyAnswers with
  | [] => (Config.freeReady e.drawn, { e with drawn := e.drawn + 1 })
  | a :: rest => (a, { e with readyAnswers := rest })

/-- R195: the byte string of `Receive`: the next one supplied, else a free value of at most 32 bytes (log entry 4). -/
def Env.drawReceive (e : Env) : List Byte × Env :=
  match e.receiveAnswers with
  | [] => ((Config.freeReceive e.drawn).take maxFrame, { e with drawn := e.drawn + 1 })
  | f :: rest => (f, { e with receiveAnswers := rest })

/-! ### Reset (R240 to R242) -/

/-- R240, R242: every register takes its reset value, any open session is abandoned, the configuration stays (R28). The
environment is not part of the block; the reset line is released. What `tx` holds afterwards is unspecified anew (R36). -/
def State.blockReset (s : State) : State :=
  { State.reset with cfg := s.cfg, env := { s.env with resets := s.env.resets + 1, resetLine := false } }

end Sys2Proof.Machine
end

