-- ==== Sys2Proof/Machine/Operands.lean ====
section
/-! DEFINITION. The operand forms: bytes of the received frame (R13, R46), the command stream at the cursor (R64), and the
header of an outbound frame (R142, R143). -/
namespace Sys2Proof.Machine

/-- R13, R46: `MemRead(addr, 1)`, which is defined below `RX_LEN` only. -/
def Context.byteAt (ctx : Context) (addr : Nat) : Option Byte :=
  if addr < ctx.rxLen then ctx.rx.read addr else none

/-- R13: `MemRead(addr, n)`, the little-endian value of `n` bytes, which is defined when `addr + n <= RX_LEN` only. -/
def Context.memRead (ctx : Context) (addr n : Nat) : Option (BitVec (8 * n)) :=
  if addr + n ≤ ctx.rxLen then (ctx.rx.readBytes addr n).map (fun bs => BitVec.ofNat (8 * n) (leNat bs)) else none

/-- R107, R109: the unread bytes of the command stream, from the cursor to the end of the received frame. -/
def Context.stream (ctx : Context) : Option (List Byte) := ctx.rx.readBytes ctx.cur (ctx.rxLen - ctx.cur)

/-- R60, R142, R143: the header of the next outbound frame: version and this node's id, then `LAST_TX`. -/
def State.txHeader (s : State) : List Byte := [headerByte s.cfg.protoVersion s.cfg.deviceId, s.lastTx]

/-- R200: the value of a register as the host reads it. -/
def State.readReg (s : State) : HostReg → Half
  | .errCur => s.errCur
  | .errPrev => s.errPrev
  | .anyError => s.anyError
  | .rstCnt => s.rstCnt.zeroExtend 16
  | .lastRx => s.lastRx.zeroExtend 16
  | .lastTx => s.lastTx.zeroExtend 16

end Sys2Proof.Machine
end

