-- ==== Sys2Proof/Machine/Gates.lean ====
section
/-! DEFINITION. The decode gates (R101 to R107): length, address, version, sequence, in that order. -/
namespace Sys2Proof.Machine

/-- R103: the frame is for this node, or for every node. -/
def addressedHere (c : Config) (b0 : Byte) : Bool := headerId b0 = c.deviceId || headerId b0 = broadcastId

/-- R106: compare, flag a mismatch, and take the received value either way. -/
def State.checkSequence (s : State) (sq : Byte) : State :=
  (if sq ≠ s.expectedSeq then s.raise .seq else s).setLastRx sq

/-- R106, R107: an accepted frame: the sequence check, then the cursor goes to the first record. -/
def State.acceptFrame (s : State) (sq : Byte) : State :=
  ((s.checkSequence sq).setCur 2).setPhase (.decode .records)

/-- R101 to R107, in the order of R111. -/
def decodeGates (s : State) : Result :=
  match s.ctxs with
  | [] => .fault .noContext
  | ctx :: _ =>
    if ctx.rxLen < minFrame then .next s.endDecode
    else
      match ctx.byteAt 0 with
      | none => .fault .rxOutOfBounds
      | some b0 =>
        if addressedHere s.cfg b0 = false then .next s.endDecode
        else if headerVersion b0 ≠ s.cfg.protoVersion then .next (s.raise .version).endDecode
        else
          match ctx.byteAt 1 with
          | none => .fault .rxOutOfBounds
          | some sq => .next (s.acceptFrame sq)

end Sys2Proof.Machine
end

