-- ==== Sys2Proof/Machine/HostOps.lean ====
section
/-! DEFINITION. The host's operations (R191, R196 to R200, R240). One starts when no session is open (R202). -/
namespace Sys2Proof.Machine

/-- An operation returns a value to the host (R190). -/
def State.answerHost (s : State) (r : HostResult) : State := s.setEnv { s.env with results := s.env.results ++ [r] }

/-- R196: CYCLE_END rotates the error masks. -/
def State.cycleEnd (s : State) : State := (s.setErrPrev s.errCur).setErrCur 0

/-- R197: COUNTDOWN_TICK decrements a nonzero countdown and tells the host whether it reached zero by that. -/
def State.countdownTick (s : State) : State :=
  if s.rstCnt = 0 then s.answerHost (.reboot false)
  else (s.setRstCnt (s.rstCnt - 1)).answerHost (.reboot (s.rstCnt - 1 = 0))

/-- R198: ERR_SET ORs any mask into `ERR_CUR`. -/
def State.errSet (s : State) (mask : Half) : State := s.setErrCur (s.errCur ||| mask)

/-- R190: one operation of the host. -/
def State.hostOp (s : State) : HostOp → State
  | .session r => s.openSession r
  | .cycleEnd => s.cycleEnd
  | .countdownTick => s.countdownTick
  | .errSet mask => s.errSet mask
  | .reset => s.blockReset
  | .read r => s.answerHost (.value r (s.readReg r))

/-- R202, R243: the idle block starts the first operation issued, and does nothing when there is none. -/
def idleStep (s : State) : Result :=
  match s.env.hostOps with
  | [] => .next s
  | op :: rest => .next ((s.setEnv { s.env with hostOps := rest }).hostOp op)

end Sys2Proof.Machine
end

