-- ==== Sys2Proof/Machine/SessionGuard.lean ====
section
/-! DEFINITION. The states of the Session Guard other than ENCODE and DECODE (R170 to R178). Each acts on the innermost session. -/
namespace Sys2Proof.Machine

/-- R171, R172: ENTER increments `DEPTH`; beyond the bound the session is rejected. -/
def sessionEnter (s : State) : Result :=
  .next ((s.setDepth (s.depth + 1)).setPhase (if s.depth + 1 > maxDepth then .reject else .encode))

/-- R172: REJECT flags the depth error, takes the increment back, and is done: no encode, no transmit, no poll. -/
def sessionReject (s : State) : Result :=
  .next (((s.raise .depth).setDepth (s.depth - 1)).setPhase .done)

/-- The frame goes out and the answer is taken (R174): a failure flags a recoverable error, and the session polls either way. -/
def State.transmitted (s : State) (frame : List Byte) : State :=
  let drawn := s.env.drawTransmit
  let s' := s.setEnv { drawn.2 with sent := drawn.2.sent ++ [frame] }
  (if drawn.1 = .fail then s'.raise .cannotDeliver else s').setPhase .poll

/-- R174, R193: TRANSMIT hands over `tx[0..TX_LEN-1]`, exactly as built. Offsets beyond 31 do not exist (R40). -/
def sessionTransmit (s : State) : Result :=
  if s.txLen > maxFrame then .fault .txOutOfBounds else .next (s.transmitted s.txFrame)

/-- R175, R194: POLL asks once whether a packet is pending. -/
def sessionPoll (s : State) : Result :=
  let drawn := s.env.drawReady
  .next ((s.setEnv drawn.2).setPhase (if drawn.1 then .receive else .exit))

/-- R175, R195, R100: RECEIVE takes one frame and pushes its context; more than 32 bytes are refused (decision D12). -/
def sessionReceive (s : State) : Result :=
  let drawn := s.env.drawReceive
  if drawn.1.length > maxFrame then .refused .receiveTooLong
  else .next (((s.setEnv drawn.2).pushFrame drawn.1).setPhase (.decode .gates))

/-- R177: EXIT decrements `DEPTH`. -/
def sessionExit (s : State) : Result := .next ((s.setDepth (s.depth - 1)).setPhase .done)

/-- R170, R123: DONE returns control to the invoker. That is the host for the outermost session, and otherwise the PING record
of the outer decode, which now advances past its two bytes. -/
def sessionDone (s : State) : Result :=
  match s.sessions with
  | [] => .next s
  | [_] => .next (s.setSessions [])
  | _ :: outer :: rest => .next ((s.setSessions (outer :: rest)).advanceCur 2)

end Sys2Proof.Machine
end

