-- ==== Sys2Proof/Machine/Control.lean ====
section
/-! DEFINITION. What the machine does next: run a command record, or take a step of the Session Guard, the gates or the host.
Fetching a record, and placing one where the next step fetches it. -/
namespace Sys2Proof.Machine

/-- What a state does next. -/
inductive Action where
  /-- Run this record. -/
  | run (i : Instr)
  /-- Answer this; no record runs. -/
  | answer (o : Result)

/-- R108, R110: in the record loop, fetch and decode the record at the cursor; at the end of the frame, end the decode. -/
def recordAction (s : State) : Action :=
  match s.ctxs with
  | [] => .answer (.fault .noContext)
  | ctx :: _ =>
    if ctx.cur < ctx.rxLen then
      match ctx.stream with
      | none => .answer (.fault .rxOutOfBounds)
      | some bytes =>
        match decode s.cfg bytes with
        | .record i _ => .run i
        | .reject _ => .answer (.fault .rxOutOfBounds)
    else .answer (.next s.endDecode)

/-- R170: the action of the innermost session, by its state. -/
def sessionAction (s : State) (top : Session) : Action :=
  match top.phase with
  | .enter => .answer (sessionEnter s)
  | .reject => .answer (sessionReject s)
  | .encode => .run (txInstr s.cfg top.request.cmd top.request.status top.request.data)
  | .transmit => .answer (sessionTransmit s)
  | .poll => .answer (sessionPoll s)
  | .receive => .answer (sessionReceive s)
  | .decode .gates => .answer (decodeGates s)
  | .decode .records => recordAction s
  | .exit => .answer (sessionExit s)
  | .done => .answer (sessionDone s)

/-- What the state does next. An illegal configuration is refused (R9, R28); a reset comes before everything else (R242); then
the innermost session moves, or the idle block starts a host operation (R202). -/
def nextAction (s : State) : Action :=
  if s.cfg.legal then
    if s.env.resetLine then .answer (.next s.blockReset)
    else
      match s.sessions with
      | [] => .answer (idleStep s)
      | top :: _ => sessionAction s top
  else .answer (.refused .illegalConfig)

/-- A host request with nothing in it, for a session whose request no longer matters. -/
def Request.empty : Request := Request.pong []

/-- A session at depth 1 that decodes a frame of this node holding just the given stream bytes, past its gates (log entry 8).
The configuration becomes the default if it is not legal, and the reset line is released; nothing else changes. -/
def State.placeStream (s : State) (bytes : List Byte) : State :=
  let c := if s.cfg.legal then s.cfg else Config.default
  let frame := headerByte c.protoVersion c.deviceId :: s.lastRx :: bytes
  { s with
    cfg := c
    depth := 1
    sessions := [{ phase := .decode .records, request := Request.empty }]
    ctxs := [{ rx := Memory.ofBytes frame, rxLen := frame.length, cur := 2 }]
    env := { s.env with resetLine := false } }

end Sys2Proof.Machine
end

