-- ==== Sys2Proof/Machine/Encode.lean ====
section
/-! DEFINITION. The meanings of the transmit records: Encode (R140 to R155), run by a session at ENCODE (R173). -/
namespace Sys2Proof.Machine

/-- R151, R152, R173: an encode that aborts flags its error, writes nothing and consumes no sequence number (decision D10); the
session skips TRANSMIT and goes to POLL. -/
def State.abortEncode (s : State) (e : ErrorKind) : State := (s.raise e).setPhase .poll

/-- R142 to R144, R153: the header, then the record, go to `tx`; `TX_LEN` is the frame's length; `LAST_TX` is read and then
incremented, wrapping; the session goes to TRANSMIT. -/
def State.buildFrame (s : State) (record : List Byte) (len : Nat) : State :=
  ((s.storeFrame (s.txHeader ++ record) len).setLastTx (s.lastTx + 1)).setPhase .transmit

/-- R145 to R149, R153: STATUS. Both `any_error()` reads, of R145 and R147, are of the same instant. -/
def execStatusTx (p : StatusRecord) (s : State) : Result :=
  let errs := s.anyError
  let len := statusLength s.cfg (mergeErrorBit errs p.sw)
  if len > maxFrame then .next (s.abortEncode .encSize)
  else .next (s.buildFrame (encode s.cfg errs (.statusTx p)) len)

/-- R150, R152: PONG, its payload copied verbatim. -/
def execPongTx (data : List Byte) (s : State) : Result :=
  let len := pongLength data
  if len > maxFrame then .next (s.abortEncode .encSize)
  else .next (s.buildFrame (encode s.cfg s.anyError (.pongTx data)) len)

/-- R151: any other command. -/
def execUnsupportedTx (_cmd : Byte) (s : State) : Result := .next (s.abortEncode .encCmd)

end Sys2Proof.Machine
end

