-- ==== Sys2Proof/Machine/RxCommands.lean ====
section
/-! DEFINITION. The meanings of the received command records (R120 to R127). `CUR` is at the opcode byte when one starts. -/
namespace Sys2Proof.Machine

/-- R122: NOP has no effect and advances past its opcode. -/
def execNop (s : State) : Result := .next (s.advanceCur 1)

/-- R125: a received STATUS is an unknown command: flag it and abort the decode. -/
def execStatusRx (s : State) : Result := .next (s.raise .unknownCmd).endDecode

/-- R123: PING opens a session that sends a PONG with the echo id. Its own context keeps `CUR` at the PING until that session
is DONE, which then advances it past the record (`sessionDone`). R121: a truncated PING ends the decode and does nothing else. -/
def execPing (echo : Option Byte) (s : State) : Result :=
  match echo with
  | none => .next s.endDecode
  | some e => .next (s.openSession (Request.pong [e]))

/-- R124: a received PONG is flagged, truncated or not, and its payload byte is consumed. R121: truncated, it ends the decode. -/
def execPongRx (echo : Option Byte) (s : State) : Result :=
  match echo with
  | none => .next (s.raise .unexpectedCmd).endDecode
  | some _ => .next ((s.raise .unexpectedCmd).advanceCur 2)

/-- R126: RESET stores its byte in the Reset Countdown. R121: truncated, it leaves the countdown and ends the decode. -/
def execReset (count : Option Byte) (s : State) : Result :=
  match count with
  | none => .next s.endDecode
  | some n => .next ((s.setRstCnt n).advanceCur 2)

/-- R127: any other opcode: flag it and abort the decode. The opcode value is not recorded (R213). -/
def execUnknownRx (_opcode : Byte) (s : State) : Result := .next (s.raise .unknownCmd).endDecode

end Sys2Proof.Machine
end

