-- ==== Sys2Proof/Machine/Dispatch.lean ====
section
/-! DEFINITION. The instruction dispatch: one arm for each constructor of Instr. -/
namespace Sys2Proof.Machine

/-- The effect of one command record (R120, R153). -/
def exec (i : Instr) (s : State) : Host.Outcome State Fault Refusal :=
  match i with
  | .nop => Sys2Proof.Machine.execNop s
  | .statusRx => Sys2Proof.Machine.execStatusRx s
  | .ping echo => Sys2Proof.Machine.execPing echo s
  | .pongRx echo => Sys2Proof.Machine.execPongRx echo s
  | .reset count => Sys2Proof.Machine.execReset count s
  | .unknownRx opcode => Sys2Proof.Machine.execUnknownRx opcode s
  | .statusTx p => Sys2Proof.Machine.execStatusTx p s
  | .pongTx data => Sys2Proof.Machine.execPongTx data s
  | .unsupportedTx cmd => Sys2Proof.Machine.execUnsupportedTx cmd s

end Sys2Proof.Machine
end

