-- ==== Sys2Proof/Machine/Step.lean ====
section
/-! DEFINITION. One step of the machine, and a record placed where the next step fetches it. -/
namespace Sys2Proof.Machine

/-- One step: run the record the state is about to run, or take the step that runs none. -/
def step (s : State) : Host.Outcome State Fault Refusal :=
  match nextAction s with
  | .run i => exec i s
  | .answer o => o

/-- `s` with the record of an opcode table word as the next one the machine runs (log entry 8). -/
def State.withFetchWord (s : State) (nbits w : Nat) : State := s.placeStream (tableBytes nbits w)

end Sys2Proof.Machine
end

