-- ==== Sys2Proof/Safety.lean ====
section
/-! DEFINITION. What counts as a sound state: the invariants R39 lists, the nesting bounds of R29 and R179, and the shape of the
frame spaces (R30 to R32, R40). -/
namespace Sys2Proof.Safety

open Sys2Proof.Machine

/-- R39 (b): the states in which a session is counted in `DEPTH`: after ENTER's increment and before the matching decrement. -/
def counted : Phase → Bool
  | .enter => false
  | .reject => true
  | .encode => true
  | .transmit => true
  | .poll => true
  | .receive => true
  | .decode _ => true
  | .exit => true
  | .done => false

/-- R29: the state in which a session has a context on the stack. -/
def decoding : Phase → Bool
  | .enter => false
  | .reject => false
  | .encode => false
  | .transmit => false
  | .poll => false
  | .receive => false
  | .decode _ => true
  | .exit => false
  | .done => false

/-- R179: the states only an accepted session reaches. -/
def accepted : Phase → Bool
  | .enter => false
  | .reject => false
  | .encode => true
  | .transmit => true
  | .poll => true
  | .receive => true
  | .decode _ => true
  | .exit => true
  | .done => false

/-- A frame space that holds exactly the offsets below `n`, in canonical form. -/
structure FrameOk (m : Memory) (n : Nat) : Prop where
  wf : m.wf
  within : ∀ c ∈ m, c.1 < n
  full : ∀ a, a < n → (m.read a).isSome

/-- R30, R31: a received frame of at most 32 bytes, all of them there, and a cursor inside it. -/
structure ContextOk (ctx : Context) : Prop where
  frame : FrameOk ctx.rx ctx.rxLen
  len : ctx.rxLen ≤ maxFrame
  cur : ctx.cur ≤ ctx.rxLen

/-- R107, R123: an outer decode waits at a PING record of its command stream, whose echo byte is in the frame. -/
structure SuspendedOk (ctx : Context) : Prop where
  started : 2 ≤ ctx.cur
  ping : ctx.byteAt ctx.cur = some opcPing
  echo : ctx.cur + 2 ≤ ctx.rxLen

/-- R100, R107: the innermost cursor is at 0 before the gates, and in the command stream after them. -/
def CursorOk (p : Phase) (ctx : Context) : Prop :=
  (p = .decode .gates → ctx.cur = 0) ∧ (p = .decode .records → 2 ≤ ctx.cur)

/-- R170, R179: every outer session waits in its decode; at most two sessions are accepted, and only a third entry is rejected. -/
def NestingOk : List Session → Prop
  | [] => True
  | top :: outer =>
    (∀ t ∈ outer, t.phase = .decode .records) ∧ outer.length ≤ 2 ∧
      (accepted top.phase = true → outer.length ≤ 1) ∧ (top.phase = .reject → outer.length = 2)

/-- The contexts of the outer decodes: all but that of the innermost session, if it is decoding. -/
def outerContexts (s : State) : List Context :=
  match s.sessions with
  | [] => s.ctxs
  | top :: _ => if decoding top.phase then s.ctxs.tail else s.ctxs

/-- R100, R107: the cursor of the innermost session's decode. -/
def InnerCursorOk (s : State) : Prop :=
  ∀ top outer ctx rest, s.sessions = top :: outer → s.ctxs = ctx :: rest → CursorOk top.phase ctx

/-- R32, R40: the transmit frame lies within 32 bytes, and a frame about to be transmitted is there in full (R193). -/
structure TxOk (s : State) : Prop where
  wf : s.tx.wf
  within : ∀ c ∈ s.tx, c.1 < maxFrame
  len : s.txLen ≤ maxFrame
  built : ∀ top outer, s.sessions = top :: outer → top.phase = .transmit →
    minFrame ≤ s.txLen ∧ ∀ a, a < s.txLen → (s.tx.read a).isSome

/-- The invariant: R39 (a), (b) and (d), R29 to R32, R107, R123, R179. -/
structure Inv (s : State) : Prop where
  depth : s.depth = s.sessions.countP (fun t => counted t.phase)
  nesting : NestingOk s.sessions
  contexts : s.ctxs.length = s.sessions.countP (fun t => decoding t.phase)
  context : ∀ ctx ∈ s.ctxs, ContextOk ctx
  outer : ∀ ctx ∈ outerContexts s, SuspendedOk ctx
  cursor : InnerCursorOk s
  tx : TxOk s

/-- The machine runs (its configuration is legal, no reset is asked for) and its innermost session is at state `p`. -/
structure AtPhase (s : State) (p : Phase) (top : Session) (outer : List Session) : Prop where
  legal : s.cfg.legal
  noReset : s.env.resetLine = false
  sessions : s.sessions = top :: outer
  phase : top.phase = p

/-- The next step takes a reset: the reset line (R242), or a RESET the host issued to the idle block (R240). -/
def resetNext (s : State) : Prop :=
  s.env.resetLine = true ∨ (s.sessions = [] ∧ ∃ rest, s.env.hostOps = .reset :: rest)

/-- The next step starts this operation of the host (R202). -/
def hostNext (s : State) (op : HostOp) : Prop :=
  s.env.resetLine = false ∧ s.sessions = [] ∧ ∃ rest, s.env.hostOps = op :: rest

/-- R30: the part of a context that no rule writes. -/
def frameOf (ctx : Context) : Memory × Nat := (ctx.rx, ctx.rxLen)

/-- `k` steps of the machine, stopping at the first fault or refusal. -/
def run : Nat → State → Result
  | 0, s => .next s
  | k + 1, s =>
    match step s with
    | .next t => run k t
    | .fault r => .fault r
    | .refused r => .refused r

/-- R39 (a): the block is between host operations. -/
def idle (s : State) : Prop := s.sessions = [] ∧ s.ctxs = [] ∧ s.depth = 0

end Sys2Proof.Safety
end

