-- ==== Sys2Proof/Certificates/Slice0/Obligations.lean ====
section
/-! DEFINITION. The statements for the provers. Each docstring names the rule it formalises, or says what it is derived from. -/

open Sys2Proof Sys2Proof.Machine Sys2Proof.Safety

/-! ### Encoding -/

/-- R62, R63, R120, R121 under the default opcode map (decision D1, log entry 1): the records that some byte strings decode to. -/
def Obligations.DefaultOpcodesDecode : Prop :=
  decode Config.default [0x00, 0x55] = .record .nop [0x55] ∧
  decode Config.default [0x01, 0x00] = .record .statusRx [0x00] ∧
  decode Config.default [0x02, 0x7A] = .record (.ping (some 0x7A)) [] ∧
  decode Config.default [0x03, 0x99, 0x00] = .record (.pongRx (some 0x99)) [0x00] ∧
  decode Config.default [0x04, 0x03] = .record (.reset (some 0x03)) [] ∧
  decode Config.default [0x05] = .record (.unknownRx 0x05) [] ∧
  decode Config.default [0xFF, 0x02] = .record (.unknownRx 0xFF) [0x02] ∧
  decode Config.default [0x02] = .record (.ping none) [] ∧
  decode Config.default [] = .reject .noOpcode

/-- R62, R63, R67, R121: under every legal opcode map, decoding the encoding of a received record gives it back, whatever
follows it; a truncated record is the last of its frame. -/
def Obligations.ReceivedRecordsRoundTrip : Prop :=
  ∀ (c : Config) (errs : Half) (i : Instr) (rest : List Byte), c.legal → i.wellFormed c = true → i.isReceived = true →
    (i.isTruncated = true → rest = []) → decode c (encode c errs i ++ rest) = .record i rest

/-- R68, R120: every nonempty stream decodes, to a well-formed received record whose encoding is what was consumed. -/
def Obligations.DecodedRecordsAreTheirBytes : Prop :=
  ∀ (c : Config) (errs : Half) (bytes : List Byte), bytes ≠ [] →
    ∃ i rest, decode c bytes = .record i rest ∧ i.wellFormed c = true ∧ i.isReceived = true ∧
      encode c errs i ++ rest = bytes ∧ (i.isTruncated = true → rest = [])

/-- R62, R65, R67, R147, R150: a receiver that parses by the status bits reads back every field a STATUS carries, and every byte
of a PONG. The reader, `parseOutbound`, is the model's own, and so is that it takes the whole payload of a PONG (DEDUCED, log
entry 14). -/
def Obligations.OutboundRecordsRoundTrip : Prop :=
  ∀ (c : Config) (errs : Half), c.legal →
    (∀ p : StatusRecord, parseOutbound c (encode c errs (.statusTx p)) = some (.status (statusWire c errs p))) ∧
    (∀ data : List Byte, parseOutbound c (encode c errs (.pongTx data)) = some (.pong data))

/-- R149, which the spec derives from R146 and R147: header, command byte and payload of a STATUS have the formula's length,
from 5 to 21 bytes. -/
def Obligations.StatusFrameLength : Prop :=
  ∀ (c : Config) (errs : Half) (p : StatusRecord),
    let sw := mergeErrorBit errs p.sw
    2 + (encode c errs (.statusTx p)).length =
        5 + 2 * (sw.getLsbD 0).toNat + 8 * (sw.getLsbD c.sRuntime).toNat + 2 * (sw.getLsbD c.sBatt).toNat
          + 4 * (sw.getLsbD c.sHumTemp).toNat ∧
      5 ≤ statusLength c sw ∧ statusLength c sw ≤ 21

/-- R147 and vector L1-6: toggling one bit of the status word changes the presence of no field but that bit's own, and no
value of a field that stays. -/
def Obligations.StatusBitTogglesOneField : Prop :=
  ∀ (c : Config) (errs : Half) (p : StatusRecord) (i : Fin 16),
    let w := statusWire c errs p
    let w' := statusWire c errs { p with sw := p.sw ^^^ (1#16 <<< i.val) }
    (i ≠ sErr → w'.mask = w.mask) ∧ (i ≠ c.sRuntime → w'.runtime = w.runtime) ∧ (i ≠ c.sBatt → w'.batt = w.batt) ∧
      (i ≠ c.sHumTemp → w'.humTemp = w.humTemp)

/-- R43: byte 0 and its two fields. -/
def Obligations.HeaderByteFields : Prop :=
  (∀ (v : BitVec 3) (i : BitVec 5), headerByte v i = (v.zeroExtend 8 <<< 5) ||| i.zeroExtend 8 ∧
    headerVersion (headerByte v i) = v ∧ headerId (headerByte v i) = i) ∧
  (∀ b : Byte, headerVersion b = b.extractLsb' 5 3 ∧ headerId b = b.extractLsb' 0 5 ∧
    headerByte (headerVersion b) (headerId b) = b)

/-- R13, R42: what `MemWrite` stores, `MemRead` gives back, little-endian, within `RX_LEN` only; no other byte changes, and
the frame space keeps its canonical form. -/
def Obligations.MemWriteReadsBack : Prop :=
  ∀ (m : Memory) (a n : Nat) (v : BitVec (8 * n)) (len cur : Nat),
    (a + n ≤ len → Context.memRead { rx := m.memWrite a n v, rxLen := len, cur := cur } a n = some v) ∧
    (len < a + n → Context.memRead { rx := m.memWrite a n v, rxLen := len, cur := cur } a n = none) ∧
    (∀ b, b < a ∨ a + n ≤ b → (m.memWrite a n v).read b = m.read b) ∧
    (m.wf → (m.memWrite a n v).wf)

/-! ### What a step runs -/

/-- R107, R108, R120: in the record loop, the step runs the record that the unread bytes of the frame decode to. -/
def Obligations.StepRunsDecodedRecord : Prop :=
  ∀ (s : State) (top : Session) (outer : List Session) (ctx : Context) (rest : List Context) (bytes tail : List Byte) (i : Instr),
    AtPhase s (.decode .records) top outer → s.ctxs = ctx :: rest → ctx.cur < ctx.rxLen → ctx.stream = some bytes →
    decode s.cfg bytes = .record i tail → step s = exec i s

/-- R153, R173: at ENCODE, the step runs the record that the request's command selects. -/
def Obligations.StepRunsRequestedEncode : Prop :=
  ∀ (s : State) (top : Session) (outer : List Session), AtPhase s .encode top outer →
    (top.request.cmd = s.cfg.opcStatus → step s = exec (.statusTx top.request.status) s) ∧
    (top.request.cmd = opcPong → step s = exec (.pongTx top.request.data) s) ∧
    (top.request.cmd ≠ s.cfg.opcStatus → top.request.cmd ≠ opcPong → step s = exec (.unsupportedTx top.request.cmd) s)

/-- R9, R28 (decisions D1, D3): a step refuses a configuration whose opcodes collide or whose device id is the broadcast id. That
it refuses colliding status bits and error bits too is the model's choice (DESIGN CHOICE, log entry 1), from the ranges of R8 and
from R211, which takes the positions as injective. -/
def Obligations.IllegalConfigRefused : Prop :=
  ∀ s : State, (s.cfg.deviceId = 31 ∨ ¬ [s.cfg.opcNop, s.cfg.opcStatus, 2, 3, s.cfg.opcReset].Nodup ∨
    ¬ [0, s.cfg.sRuntime, s.cfg.sBatt, s.cfg.sLowBatt, s.cfg.sHumTemp].Nodup ∨
    (∃ e e', e ≠ e' ∧ s.cfg.ebit e = s.cfg.ebit e')) → step s = .refused .illegalConfig

/-- Log entry 8 (the model's own): a word of the opcode table, placed where the next step fetches, is what that step runs. -/
def Obligations.PlacedWordRunsNext : Prop :=
  ∀ (s : State) (nbits w : Nat) (i : Instr), s.cfg = Config.default → decodeTableWord nbits w = some i →
    step (s.withFetchWord nbits w) = exec i (s.withFetchWord nbits w)

/-! ### Received records -/

/-- R122: the opcode of NOP is a whole record, and NOP advances the cursor past it and does nothing else. -/
def Obligations.NopOnlyAdvances : Prop :=
  (∀ (c : Config) (tail : List Byte), decode c (c.opcNop :: tail) = .record .nop tail) ∧
  (∀ (s : State) (ctx : Context) (rest : List Context), s.ctxs = ctx :: rest →
    exec .nop s = .next { s with ctxs := { ctx with cur := ctx.cur + 1 } :: rest })

/-- R123, R192: PING opens a session that will send a PONG with the one echo byte, and changes nothing else yet. -/
def Obligations.PingOpensPongSession : Prop :=
  ∀ (s : State) (e : Byte), ∃ r : Request, r.cmd = opcPong ∧ r.data = [e] ∧
    exec (.ping (some e)) s = .next { s with sessions := { phase := .enter, request := r } :: s.sessions }

/-- R121 (decision D9): an OP1 opcode at the end of the frame decodes to the truncated form; a truncated PING or RESET ends
the decode and does nothing else, and a truncated PONG raises its own error besides. -/
def Obligations.TruncatedRecordsEndDecode : Prop :=
  (∀ c : Config, c.legal → decode c [opcPing] = .record (.ping none) [] ∧ decode c [opcPong] = .record (.pongRx none) [] ∧
    decode c [c.opcReset] = .record (.reset none) []) ∧
  (∀ (s : State) (top : Session) (outer : List Session) (ctx : Context) (rest : List Context),
    s.sessions = top :: outer → s.ctxs = ctx :: rest →
    let t := { s with sessions := { top with phase := .exit } :: outer, ctxs := rest }
    exec (.ping none) s = .next t ∧ exec (.reset none) s = .next t ∧
    exec (.pongRx none) s = .next { t with errCur := s.errCur ||| errorMask s.cfg .unexpectedCmd })

/-- R124: a received PONG is flagged; its payload byte is consumed, or the decode ends if there is none (R121, decision D9). -/
def Obligations.ReceivedPongFlagged : Prop :=
  (∀ (c : Config) (b : Byte) (tail : List Byte), c.legal → decode c (opcPong :: b :: tail) = .record (.pongRx (some b)) tail) ∧
  (∀ (s : State) (b : Byte) (ctx : Context) (rest : List Context), s.ctxs = ctx :: rest →
    exec (.pongRx (some b)) s = .next { s with
      errCur := s.errCur ||| errorMask s.cfg .unexpectedCmd, ctxs := { ctx with cur := ctx.cur + 2 } :: rest }) ∧
  (∀ (s : State) (top : Session) (outer : List Session) (ctx : Context) (rest : List Context),
    s.sessions = top :: outer → s.ctxs = ctx :: rest →
    exec (.pongRx none) s = .next { s with
      errCur := s.errCur ||| errorMask s.cfg .unexpectedCmd, ctxs := rest, sessions := { top with phase := .exit } :: outer })

/-- R126: RESET stores its byte, whatever it is, and advances past the record; with no byte it ends the decode and leaves the
countdown (R121, decision D9). -/
def Obligations.ResetStoresCountdown : Prop :=
  (∀ (c : Config) (n : Byte) (tail : List Byte), c.legal → decode c (c.opcReset :: n :: tail) = .record (.reset (some n)) tail) ∧
  (∀ (s : State) (n : Byte) (ctx : Context) (rest : List Context), s.ctxs = ctx :: rest →
    exec (.reset (some n)) s = .next { s with rstCnt := n, ctxs := { ctx with cur := ctx.cur + 2 } :: rest }) ∧
  (∀ (s : State) (top : Session) (outer : List Session) (ctx : Context) (rest : List Context),
    s.sessions = top :: outer → s.ctxs = ctx :: rest →
    exec (.reset none) s = .next { s with ctxs := rest, sessions := { top with phase := .exit } :: outer })

/-- R127: an opcode that is none of the five is flagged, and the rest of the stream is not parsed. -/
def Obligations.UnknownOpcodeAborts : Prop :=
  (∀ (c : Config) (op : Byte) (tail : List Byte), op ∉ c.opcodes → decode c (op :: tail) = .record (.unknownRx op) tail) ∧
  (∀ (s : State) (op : Byte) (top : Session) (outer : List Session) (ctx : Context) (rest : List Context),
    s.sessions = top :: outer → s.ctxs = ctx :: rest →
    exec (.unknownRx op) s = .next { s with
      errCur := s.errCur ||| errorMask s.cfg .unknownCmd, ctxs := rest, sessions := { top with phase := .exit } :: outer })

/-- R125, which the spec derives from the decoder's command list: a received STATUS is an unknown command. -/
def Obligations.ReceivedStatusAborts : Prop :=
  ∀ (s : State) (top : Session) (outer : List Session) (ctx : Context) (rest : List Context),
    s.sessions = top :: outer → s.ctxs = ctx :: rest →
    exec .statusRx s = .next { s with
      errCur := s.errCur ||| errorMask s.cfg .unknownCmd, ctxs := rest, sessions := { top with phase := .exit } :: outer }

/-- R30, R38, R51, R113, R122 to R127: the frame of the six received records. No byte of the transmit frame changes, no port
is used, every receive frame still on the stack is as it was, and of the registers only the named ones may change. -/
def Obligations.ReceivedRecordFrame : Prop :=
  ∀ (i : Instr) (s t : State), i.isReceived = true → exec i s = .next t →
    t.cfg = s.cfg ∧ t.lastRx = s.lastRx ∧ t.lastTx = s.lastTx ∧ t.errPrev = s.errPrev ∧ t.depth = s.depth ∧
    t.txLen = s.txLen ∧ t.env = s.env ∧ (∀ a, t.tx.read a = s.tx.read a) ∧
    (t.ctxs.map frameOf <:+ s.ctxs.map frameOf) ∧
    ((∀ e, i ≠ .pongRx e) → i ≠ .statusRx → (∀ op, i ≠ .unknownRx op) → t.errCur = s.errCur) ∧
    ((∀ n, i ≠ .reset (some n)) → t.rstCnt = s.rstCnt)

/-! ### Encode -/

/-- R142 to R147: a STATUS builds its frame in every state: header, opcode, the status word with the error bit merged, then
each field whose bit is set, in the fixed order; `LAST_TX` is read and then incremented, wrapping. The byte order of the 4-byte
fields is decision D6, and that of the 2-byte fields beside the status word and the mask is derived in R42. -/
def Obligations.StatusBuildsItsFrame : Prop :=
  ∀ (s : State) (p : StatusRecord) (top : Session) (outer : List Session), s.sessions = top :: outer →
    let errs := s.errCur ||| s.errPrev
    let sw := p.sw ||| (if errs ≠ 0 then 1 else 0)
    ∃ t, exec (.statusTx p) s = .next t ∧
      t.tx.readBytes 0 t.txLen = some (
        [headerByte s.cfg.protoVersion s.cfg.deviceId, s.lastTx, s.cfg.opcStatus] ++ leBytes 2 sw
          ++ (if sw.getLsbD 0 then leBytes 2 errs else [])
          ++ (if sw.getLsbD s.cfg.sRuntime then leBytes 4 p.elapsed ++ leBytes 4 p.wake else [])
          ++ (if sw.getLsbD s.cfg.sBatt then leBytes 2 p.batt else [])
          ++ (if sw.getLsbD s.cfg.sHumTemp then leBytes 2 p.hum ++ leBytes 2 p.temp else [])) ∧
      t.lastTx = s.lastTx + 1 ∧ t.sessions = { top with phase := .transmit } :: outer ∧ t.errCur = s.errCur

/-- R142 to R144, R150: a PONG that fits builds its frame, its payload copied verbatim; one that does not is flagged. -/
def Obligations.PongBuildsItsFrame : Prop :=
  ∀ (s : State) (data : List Byte) (top : Session) (outer : List Session), s.sessions = top :: outer →
    (3 + data.length ≤ 32 → ∃ t, exec (.pongTx data) s = .next t ∧ t.txLen = 3 + data.length ∧
      t.tx.readBytes 0 t.txLen = some ([headerByte s.cfg.protoVersion s.cfg.deviceId, s.lastTx, opcPong] ++ data) ∧
      t.lastTx = s.lastTx + 1 ∧ t.sessions = { top with phase := .transmit } :: outer ∧ t.errCur = s.errCur) ∧
    (32 < 3 + data.length → ∃ t, exec (.pongTx data) s = .next t ∧ t.errCur = s.errCur ||| errorMask s.cfg .encSize)

/-- R152 (with decision D10 for `LAST_TX`): a PONG beyond the payload ceiling is flagged, writes nothing, consumes no sequence
number, and its session goes on to its poll. -/
def Obligations.OversizePongAborts : Prop :=
  ∀ (s : State) (data : List Byte) (top : Session) (outer : List Session), s.sessions = top :: outer → 30 ≤ data.length →
    exec (.pongTx data) s = .next { s with
      errCur := s.errCur ||| errorMask s.cfg .encSize, sessions := { top with phase := .poll } :: outer }

/-- R151 (with decision D10 for `LAST_TX`): an unsupported command is flagged, writes nothing, consumes no sequence number,
and its session goes on to its poll. -/
def Obligations.UnsupportedCommandAborts : Prop :=
  ∀ (s : State) (cmd : Byte) (top : Session) (outer : List Session), s.sessions = top :: outer →
    exec (.unsupportedTx cmd) s = .next { s with
      errCur := s.errCur ||| errorMask s.cfg .encCmd, sessions := { top with phase := .poll } :: outer }

/-- R38, R113, R141: the frame of the three transmit records. Every byte of `tx` outside the frame built keeps its value (all of
them when nothing is built), nothing is sent yet, and no register changes but `LAST_TX`, `TX_LEN` and, on an abort, `ERR_CUR`. -/
def Obligations.EncodeFrame : Prop :=
  ∀ (i : Instr) (s t : State), i.isReceived = false → exec i s = .next t →
    t.cfg = s.cfg ∧ t.lastRx = s.lastRx ∧ t.errPrev = s.errPrev ∧ t.rstCnt = s.rstCnt ∧ t.depth = s.depth ∧
    t.ctxs = s.ctxs ∧ t.env = s.env ∧
    ((t.lastTx = s.lastTx + 1 ∧ t.errCur = s.errCur ∧ t.txLen = 2 + (encode s.cfg (s.errCur ||| s.errPrev) i).length ∧
        ∀ a, t.txLen ≤ a → t.tx.read a = s.tx.read a) ∨
      (t.lastTx = s.lastTx ∧ t.txLen = s.txLen ∧ ∀ a, t.tx.read a = s.tx.read a))

/-! ### The gates -/

/-- R101: a frame shorter than 3 bytes ends its decode, and nothing else changes. -/
def Obligations.ShortFrameIsSilent : Prop :=
  ∀ (s : State) (top : Session) (outer : List Session) (ctx : Context) (rest : List Context),
    AtPhase s (.decode .gates) top outer → s.ctxs = ctx :: rest → ctx.rxLen < 3 →
    step s = .next { s with ctxs := rest, sessions := { top with phase := .exit } :: outer }

/-- R102, R103: a frame for another id ends its decode and nothing else changes, its version not even looked at; a frame of
the supported version for this node or for every node is accepted. -/
def Obligations.AddressGate : Prop :=
  ∀ (s : State) (top : Session) (outer : List Session) (ctx : Context) (rest : List Context) (b0 b1 : Byte),
    AtPhase s (.decode .gates) top outer → s.ctxs = ctx :: rest → 3 ≤ ctx.rxLen → ctx.byteAt 0 = some b0 →
    ctx.byteAt 1 = some b1 →
    (b0.extractLsb' 0 5 ≠ s.cfg.deviceId → b0.extractLsb' 0 5 ≠ (31 : BitVec 5) →
      step s = .next { s with ctxs := rest, sessions := { top with phase := .exit } :: outer }) ∧
    ((b0.extractLsb' 0 5 = s.cfg.deviceId ∨ b0.extractLsb' 0 5 = (31 : BitVec 5)) →
      b0.extractLsb' 5 3 = s.cfg.protoVersion →
      ∃ t, step s = .next t ∧ t.lastRx = b1 ∧ t.sessions = { top with phase := .decode .records } :: outer)

/-- R104: a frame addressed here with another version sets that error bit and ends its decode. That `LAST_RX` stays is marked in
R104 as the spec's own inference. -/
def Obligations.VersionGate : Prop :=
  ∀ (s : State) (top : Session) (outer : List Session) (ctx : Context) (rest : List Context) (b0 : Byte),
    AtPhase s (.decode .gates) top outer → s.ctxs = ctx :: rest → 3 ≤ ctx.rxLen → ctx.byteAt 0 = some b0 →
    (b0.extractLsb' 0 5 = s.cfg.deviceId ∨ b0.extractLsb' 0 5 = (31 : BitVec 5)) →
    b0.extractLsb' 5 3 ≠ s.cfg.protoVersion →
    step s = .next { s with
      errCur := s.errCur ||| errorMask s.cfg .version, ctxs := rest, sessions := { top with phase := .exit } :: outer }

/-- R106, R107: an accepted frame's sequence byte is compared with `LAST_RX + 1`, wrapping; a mismatch is flagged; `LAST_RX`
takes the byte either way; the cursor goes to the first record. -/
def Obligations.SequenceCheckResynchronises : Prop :=
  ∀ (s : State) (top : Session) (outer : List Session) (ctx : Context) (rest : List Context) (b0 sq : Byte),
    AtPhase s (.decode .gates) top outer → s.ctxs = ctx :: rest → 3 ≤ ctx.rxLen → ctx.byteAt 0 = some b0 →
    (b0.extractLsb' 0 5 = s.cfg.deviceId ∨ b0.extractLsb' 0 5 = (31 : BitVec 5)) →
    b0.extractLsb' 5 3 = s.cfg.protoVersion → ctx.byteAt 1 = some sq →
    step s = .next { s with
      lastRx := sq
      errCur := if sq = s.lastRx + 1 then s.errCur else s.errCur ||| errorMask s.cfg .seq
      ctxs := { ctx with cur := 2 } :: rest
      sessions := { top with phase := .decode .records } :: outer }

/-- R108, R110: at the end of the frame the decode ends: its context is popped and its session goes to EXIT. -/
def Obligations.FrameEndReturns : Prop :=
  ∀ (s : State) (top : Session) (outer : List Session) (ctx : Context) (rest : List Context),
    AtPhase s (.decode .records) top outer → s.ctxs = ctx :: rest → ctx.rxLen ≤ ctx.cur →
    step s = .next { s with ctxs := rest, sessions := { top with phase := .exit } :: outer }

/-! ### The Session Guard -/

/-- R171: ENTER increments `DEPTH`, and the bound decides between REJECT and ENCODE (R170). -/
def Obligations.EnterIncrementsDepth : Prop :=
  ∀ (s : State) (top : Session) (outer : List Session), AtPhase s .enter top outer →
    (2 < s.depth + 1 →
      step s = .next { s with depth := s.depth + 1, sessions := { top with phase := .reject } :: outer }) ∧
    (s.depth + 1 ≤ 2 →
      step s = .next { s with depth := s.depth + 1, sessions := { top with phase := .encode } :: outer })

/-- R172: an entry beyond the bound, run to its return in three steps (the count is the model's own, log entry 10): the depth error is set, `DEPTH` is what it was, and no
port is used, no sequence number consumed, no byte of `tx` written. -/
def Obligations.DeepEntryIsRejected : Prop :=
  ∀ (s : State) (top : Session) (outer : List Session), AtPhase s .enter top outer → 2 < s.depth + 1 →
    ∃ t, run 3 s = .next t ∧ t.errCur = s.errCur ||| errorMask s.cfg .depth ∧ t.depth = s.depth ∧ t.sessions = outer ∧
      t.env = s.env ∧ t.lastTx = s.lastTx ∧ t.tx = s.tx ∧ t.txLen = s.txLen ∧ t.lastRx = s.lastRx ∧
      t.errPrev = s.errPrev ∧ t.rstCnt = s.rstCnt ∧ t.cfg = s.cfg ∧ t.ctxs.map frameOf = s.ctxs.map frameOf

/-- R174, R193, R32: TRANSMIT hands over `tx[0..TX_LEN-1]` unaltered; a failed delivery is flagged; the session polls either way.
A byte that was written is handed over as written, and one that was not is a free value (log entry 2). That the answer is the next
one supplied (decision D19), and that what was sent is kept, are the model's choices (log entries 4 and 7). -/
def Obligations.TransmitHandsOverTheFrame : Prop :=
  ∀ (s : State) (top : Session) (outer : List Session), AtPhase s .transmit top outer → s.txLen ≤ 32 →
    ∃ t frame, step s = .next t ∧ t = { s with
        env := { s.env.drawTransmit.2 with sent := s.env.sent ++ [frame] }
        errCur := if s.env.drawTransmit.1 = .fail then s.errCur ||| errorMask s.cfg .cannotDeliver else s.errCur
        sessions := { top with phase := .poll } :: outer } ∧
      frame.length = s.txLen ∧ (∀ a, a < s.txLen → frame[a]? = some (s.txByte a)) ∧
      (∀ a b, s.tx.read a = some b → s.txByte a = b) ∧
      (∀ a as, s.env.transmitAnswers = a :: as → s.env.drawTransmit.1 = a ∧ t.env.transmitAnswers = as)

/-- R175, R194, R195 (decision D12; the answers are those supplied, log entry 4): POLL asks once; a true answer leads to RECEIVE, which pushes the frame delivered, its
cursor at 0 (R100), or is refused when the frame is longer than 32 bytes. -/
def Obligations.PollAndReceive : Prop :=
  ∀ (s : State) (top : Session) (outer : List Session),
    (AtPhase s .poll top outer → ∀ b bs, s.env.readyAnswers = b :: bs →
      step s = .next { s with
        env := { s.env with readyAnswers := bs }
        sessions := { top with phase := if b then .receive else .exit } :: outer }) ∧
    (AtPhase s .receive top outer → ∀ f fs, s.env.receiveAnswers = f :: fs →
      (f.length ≤ 32 → ∃ ctx, ctx.cur = 0 ∧ ctx.rxLen = f.length ∧ (∀ a, ctx.rx.read a = f[a]?) ∧
        step s = .next { s with
          env := { s.env with receiveAnswers := fs }
          ctxs := ctx :: s.ctxs
          sessions := { top with phase := .decode .gates } :: outer }) ∧
      (32 < f.length → step s = .refused .receiveTooLong))

/-- R177: EXIT decrements `DEPTH`; DONE returns to the invoker (R170): to the host, or to the outer decode, which goes on at
the byte after its PING record (R49, R123). That its cursor moves in the step of DONE is DEDUCED (log entry 9). -/
def Obligations.ExitRestoresDepth : Prop :=
  ∀ (s : State) (top : Session) (outer : List Session),
    (AtPhase s .exit top outer →
      step s = .next { s with depth := s.depth - 1, sessions := { top with phase := .done } :: outer }) ∧
    (AtPhase s .done top outer → outer = [] → step s = .next { s with sessions := [] }) ∧
    (AtPhase s .done top outer → outer ≠ [] → ∀ ctx rest, s.ctxs = ctx :: rest →
      step s = .next { s with sessions := outer, ctxs := { ctx with cur := ctx.cur + 2 } :: rest })

/-- R123, R150, R178, R192: a PING below the depth bound, run to its return in seven steps (the count is the model's own, log
entry 10) with the frame delivered and no packet pending: one PONG with the echo byte goes out, `LAST_TX` advances, and the decode
goes on after the record. -/
def Obligations.PingRepliesAndResumes : Prop :=
  ∀ (s : State) (top : Session) (outer : List Session) (ctx : Context) (rest : List Context) (e : Byte) (tail : List Byte)
    (answers : List TransmitAnswer) (polls : List Bool),
    AtPhase s (.decode .records) top outer → s.ctxs = ctx :: rest → ctx.stream = some (opcPing :: e :: tail) →
    s.depth + 1 ≤ 2 → s.env.transmitAnswers = .ok :: answers → s.env.readyAnswers = false :: polls →
    ∃ t, run 7 s = .next t ∧ t.env = { s.env with
        transmitAnswers := answers
        readyAnswers := polls
        sent := s.env.sent ++ [[headerByte s.cfg.protoVersion s.cfg.deviceId, s.lastTx, opcPong, e]] } ∧
      t.lastTx = s.lastTx + 1 ∧ t.ctxs = { ctx with cur := ctx.cur + 2 } :: rest ∧ t.sessions = s.sessions ∧
      t.depth = s.depth ∧ t.errCur = s.errCur ∧ t.errPrev = s.errPrev ∧ t.lastRx = s.lastRx ∧ t.rstCnt = s.rstCnt ∧
      t.cfg = s.cfg

/-- R123, R172 and vector S-5: a PING decoded at depth 2 sets the depth error, sends nothing, and the decode goes on, in four
steps (the count is the model's own, log entry 10). -/
def Obligations.PingAtTheBoundSendsNothing : Prop :=
  ∀ (s : State) (top : Session) (outer : List Session) (ctx : Context) (rest : List Context) (e : Byte) (tail : List Byte),
    AtPhase s (.decode .records) top outer → s.ctxs = ctx :: rest → ctx.stream = some (opcPing :: e :: tail) → s.depth = 2 →
    run 4 s = .next { s with
      errCur := s.errCur ||| errorMask s.cfg .depth, ctxs := { ctx with cur := ctx.cur + 2 } :: rest }

/-- R145, R174, R178, R191: a STATUS session of the idle block with no packet pending, run to its end in seven steps (the
count is the model's own, log entry 10): exactly one frame goes out, an undelivered one is flagged and the session polls all the
same (decision D11), and the block is idle again. -/
def Obligations.StatusSessionSendsOneFrame : Prop :=
  ∀ (s : State) (r : Request) (ops : List HostOp) (answer : TransmitAnswer) (answers : List TransmitAnswer) (polls : List Bool),
    s.cfg.legal → s.env.resetLine = false → idle s → s.env.hostOps = .session r :: ops → r.cmd = s.cfg.opcStatus →
    s.env.transmitAnswers = answer :: answers → s.env.readyAnswers = false :: polls →
    ∃ t, run 7 s = .next t ∧ idle t ∧ t.env = { s.env with
        hostOps := ops
        transmitAnswers := answers
        readyAnswers := polls
        sent := s.env.sent ++ [headerByte s.cfg.protoVersion s.cfg.deviceId :: s.lastTx ::
          encode s.cfg (s.errCur ||| s.errPrev) (.statusTx r.status)] } ∧
      t.lastTx = s.lastTx + 1 ∧
      t.errCur = (if answer = .fail then s.errCur ||| errorMask s.cfg .cannotDeliver else s.errCur) ∧
      t.errPrev = s.errPrev ∧ t.lastRx = s.lastRx ∧ t.rstCnt = s.rstCnt ∧ t.cfg = s.cfg

/-! ### Host operations and reset -/

/-- R196: CYCLE_END copies `ERR_CUR` into `ERR_PREV` and clears it. -/
def Obligations.CycleEndRotatesErrors : Prop :=
  ∀ (s : State) (ops : List HostOp), s.cfg.legal → s.env.resetLine = false → s.sessions = [] →
    s.env.hostOps = .cycleEnd :: ops →
    step s = .next { s with errPrev := s.errCur, errCur := 0, env := { s.env with hostOps := ops } }

/-- R197: COUNTDOWN_TICK leaves a zero countdown and answers false; a nonzero one it decrements, and answers whether that
reached zero. -/
def Obligations.CountdownTickFiresAtZero : Prop :=
  ∀ (s : State) (ops : List HostOp), s.cfg.legal → s.env.resetLine = false → s.sessions = [] →
    s.env.hostOps = .countdownTick :: ops →
    (s.rstCnt = 0 → step s = .next { s with
      env := { s.env with hostOps := ops, results := s.env.results ++ [.reboot false] } }) ∧
    (s.rstCnt ≠ 0 → ∃ t, step s = .next t ∧ t.rstCnt.toNat + 1 = s.rstCnt.toNat ∧ t = { s with
      rstCnt := t.rstCnt
      env := { s.env with hostOps := ops, results := s.env.results ++ [.reboot (decide (s.rstCnt = 1))] } })

/-- R25, R198, R200 (decision D16): ERR_SET ORs any mask into `ERR_CUR`; a register read returns the register and changes nothing
of the block. That the value is zero-extended to 16 bits and kept in a trace is the model's choice (log entry 7). -/
def Obligations.ErrSetAndRegisterReads : Prop :=
  ∀ (s : State) (ops : List HostOp), s.cfg.legal → s.env.resetLine = false → s.sessions = [] →
    (∀ mask, s.env.hostOps = .errSet mask :: ops →
      step s = .next { s with errCur := s.errCur ||| mask, env := { s.env with hostOps := ops } }) ∧
    (∀ r, s.env.hostOps = .read r :: ops → ∃ v, step s = .next { s with
        env := { s.env with hostOps := ops, results := s.env.results ++ [.value r v] } } ∧
      v = match r with
        | .errCur => s.errCur
        | .errPrev => s.errPrev
        | .anyError => s.errCur ||| s.errPrev
        | .rstCnt => s.rstCnt.setWidth 16
        | .lastRx => s.lastRx.setWidth 16
        | .lastTx => s.lastTx.setWidth 16)

/-- R240 to R242, R28 (decisions D8 and D18): a reset, at any moment, abandons every session, clears every register, and leaves
the configuration. That the reset line is served before anything else and released, and that what was sent is kept, are the
model's choices (DESIGN CHOICE, log entry 6). What `tx` holds is unspecified anew (R36): free values of this reset (log entry 2);
`TX_LEN` is then as log entry 3 chooses. -/
def Obligations.ResetAbandonsEverything : Prop :=
  ∀ s : State, s.cfg.legal → (s.env.resetLine = true ∨ (s.sessions = [] ∧ ∃ ops, s.env.hostOps = .reset :: ops)) →
    ∃ t, step s = .next t ∧ t.lastRx = 0 ∧ t.lastTx = 0 ∧ t.errCur = 0 ∧ t.errPrev = 0 ∧ t.rstCnt = 0 ∧ t.depth = 0 ∧
      t.ctxs = [] ∧ t.sessions = [] ∧ t.cfg = s.cfg ∧ t.env.sent = s.env.sent ∧ t.env.resetLine = false ∧
      t.env.resets = s.env.resets + 1 ∧ ∀ a, t.txByte a = Config.freeTx (s.env.resets + 1) a

/-- R36 (decision D8; log entries 1 to 3 and 7 for the configuration, `tx`, `TX_LEN` and the environment): the state after reset. -/
def Obligations.ResetValues : Prop :=
  let s := State.reset
  s.lastRx = 0 ∧ s.lastTx = 0 ∧ s.errCur = 0 ∧ s.errPrev = 0 ∧ s.rstCnt = 0 ∧ s.depth = 0 ∧ s.ctxs = [] ∧ s.sessions = [] ∧
    s.tx = [] ∧ (∀ a, s.txByte a = Config.freeTx s.env.resets a) ∧ s.txLen = 0 ∧ s.cfg = Config.default ∧ s.cfg.legal ∧ s.env = Env.empty

/-- R202, R243: the idle block with no operation issued does nothing; while a session is open, no operation of the host starts. -/
def Obligations.HostOperationsWait : Prop :=
  (∀ s : State, s.cfg.legal → s.env.resetLine = false → s.sessions = [] → s.env.hostOps = [] → step s = .next s) ∧
  (∀ s t : State, s.sessions ≠ [] → step s = .next t → t.env.hostOps = s.env.hostOps ∧ t.env.results = s.env.results)

/-! ### Invariants and whole-machine rules -/

/-- R39 (a), R36: the state after reset meets the invariant. -/
def Obligations.ResetMeetsInvariant : Prop := Inv State.reset

/-- R39, R29 to R32, R107, R179: every step keeps the invariant. -/
def Obligations.StepKeepsInvariant : Prop := ∀ s t : State, Inv s → step s = .next t → Inv t

/-- R13, R40, R109, R246: no sound state reads beyond a received frame, transmits beyond `tx`, or misses its context. -/
def Obligations.SoundStatesNeverFault : Prop := ∀ s : State, Inv s → ∀ f, step s ≠ .fault f

/-- R195, R9 (decisions D12, D1): a sound state is refused only for an illegal configuration or an overlong delivery, and never
when the configuration is legal and every supplied delivery fits. -/
def Obligations.RefusalsNameTheirCause : Prop :=
  ∀ s : State, Inv s →
    (∀ r, step s = .refused r → (r = .illegalConfig ∧ ¬ s.cfg.legal) ∨ (r = .receiveTooLong ∧
      ∃ top outer f fs, AtPhase s .receive top outer ∧ s.env.receiveAnswers = f :: fs ∧ 32 < f.length)) ∧
    (s.cfg.legal → (∀ f ∈ s.env.receiveAnswers, f.length ≤ 32) → ∃ t, step s = .next t)

/-- R21, R38, R105: `LAST_RX` changes only by an accepted frame, one that passed the length, address and version gates and goes on
to its records, to that frame's sequence byte; or by reset. -/
def Obligations.LastRxWriters : Prop :=
  ∀ s t : State, step s = .next t → t.lastRx = s.lastRx ∨ (resetNext s ∧ t.lastRx = 0) ∨
    (∃ top outer ctx rest b0, AtPhase s (.decode .gates) top outer ∧ s.ctxs = ctx :: rest ∧
      3 ≤ ctx.rxLen ∧ ctx.byteAt 0 = some b0 ∧
      (b0.extractLsb' 0 5 = s.cfg.deviceId ∨ b0.extractLsb' 0 5 = (31 : BitVec 5)) ∧
      b0.extractLsb' 5 3 = s.cfg.protoVersion ∧ ctx.byteAt 1 = some t.lastRx ∧
      t.sessions = { top with phase := .decode .records } :: outer)

/-- R22, R38, R143: `LAST_TX` changes only by an encode that builds a frame, by one, or by reset. -/
def Obligations.LastTxWriters : Prop :=
  ∀ s t : State, step s = .next t → t.lastTx = s.lastTx ∨ (resetNext s ∧ t.lastTx = 0) ∨
    (∃ top outer, AtPhase s .encode top outer ∧ t.lastTx = s.lastTx + 1 ∧
      t.sessions = { top with phase := .transmit } :: outer)

/-- R23, R38, R219: no step clears a bit of `ERR_CUR`, but for CYCLE_END and reset. -/
def Obligations.ErrorBitsStay : Prop :=
  ∀ s t : State, step s = .next t → s.errCur &&& t.errCur = s.errCur ∨ resetNext s ∨ hostNext s .cycleEnd

/-- R24, R38: `ERR_PREV` changes only by CYCLE_END, which takes `ERR_CUR`, or by reset. -/
def Obligations.ErrPrevWriters : Prop :=
  ∀ s t : State, step s = .next t → t.errPrev = s.errPrev ∨ (resetNext s ∧ t.errPrev = 0) ∨
    (hostNext s .cycleEnd ∧ t.errPrev = s.errCur)

/-- R26, R38: `RST_CNT` changes only by a RESET record of the frame being decoded, by COUNTDOWN_TICK, or by reset. -/
def Obligations.CountdownWriters : Prop :=
  ∀ s t : State, step s = .next t → t.rstCnt = s.rstCnt ∨ (resetNext s ∧ t.rstCnt = 0) ∨
    (hostNext s .countdownTick ∧ s.rstCnt ≠ 0 ∧ t.rstCnt = s.rstCnt - 1) ∨
    (∃ top outer ctx rest, AtPhase s (.decode .records) top outer ∧ s.ctxs = ctx :: rest ∧
      ctx.byteAt ctx.cur = some s.cfg.opcReset ∧ ctx.byteAt (ctx.cur + 1) = some t.rstCnt)

/-- R28, R240: no step changes the configuration. -/
def Obligations.ConfigNeverChanges : Prop := ∀ s t : State, step s = .next t → t.cfg = s.cfg

/-- R30, R31, R51: no step writes a receive frame on the stack or moves a cursor back; a step pushes the one frame received,
pops the innermost context, or keeps them all, and a reset drops them. -/
def Obligations.ReceiveFramesNeverWritten : Prop :=
  ∀ s t : State, Inv s → step s = .next t →
    List.Forall₂ (fun a b => b.rx = a.rx ∧ b.rxLen = a.rxLen ∧ a.cur ≤ b.cur) s.ctxs t.ctxs ∨
    (∃ ctx, t.ctxs = ctx :: s.ctxs ∧ ctx.cur = 0 ∧ ∃ top outer, AtPhase s .receive top outer) ∨
    (t.ctxs = s.ctxs.tail ∧ ∃ top outer d, AtPhase s (.decode d) top outer) ∨ (t.ctxs = [] ∧ resetNext s)

/-- R49, R248: while a nested session runs, the contexts of the decodes outside it do not change at all. -/
def Obligations.OuterDecodesUndisturbed : Prop :=
  ∀ (s t : State) (top : Session) (outer : List Session), Inv s → s.env.resetLine = false → s.sessions = top :: outer →
    top.phase ≠ .done → step s = .next t →
    t.ctxs.drop (t.ctxs.length - outer.length) = s.ctxs.drop (s.ctxs.length - outer.length) ∧ outer <:+ t.sessions

/-- R113, R190, R193: a frame leaves the block only at TRANSMIT, one at a time, exactly the 3 to 32 bytes built in `tx`,
every one of them written. -/
def Obligations.FramesLeaveOnlyAtTransmit : Prop :=
  ∀ s t : State, Inv s → step s = .next t → t.env.sent = s.env.sent ∨
    (∃ top outer frame, AtPhase s .transmit top outer ∧ s.tx.readBytes 0 s.txLen = some frame ∧
      3 ≤ frame.length ∧ frame.length ≤ 32 ∧ t.env.sent = s.env.sent ++ [frame])

/-- R177, R179, R201: every open session ends, with `DEPTH` at 0 and the context stack empty, within 5000 steps, if no reset
comes and every supplied delivery fits. The bound is the model's own (log entry 10). -/
def Obligations.SessionsComplete : Prop :=
  ∀ s : State, Inv s → s.cfg.legal → s.env.resetLine = false → (∀ f ∈ s.env.receiveAnswers, f.length ≤ 32) →
    ∃ k t, k ≤ 5000 ∧ run k s = .next t ∧ idle t ∧ t.env.hostOps = s.env.hostOps

/-- R179, which the spec derives from R172, R175, R73 and R123: a SESSION of the host transmits at most 16 frames. -/
def Obligations.SessionSendsAtMostSixteen : Prop :=
  ∀ (s : State) (r : Request), Inv s → s.env.resetLine = false → s.sessions = [{ phase := .enter, request := r }] →
    s.env.hostOps = [] → ∀ k t, run k s = .next t → t.env.sent.length ≤ s.env.sent.length + 16

/-- R14, R211 (decision D5): the error kinds set different bits of the mask, one each, and setting a bit twice is setting it
once. -/
def Obligations.ErrorKindsHaveTheirOwnBit : Prop :=
  ∀ s : State, s.cfg.legal →
    (∀ e e', e ≠ e' → errorMask s.cfg e &&& errorMask s.cfg e' = 0) ∧
    (∀ e, (errorMask s.cfg e).toNat = 2 ^ (s.cfg.ebit e).val) ∧
    (∀ e, (s.raise e).raise e = s.raise e ∧ s.raise e = { s with errCur := s.errCur ||| errorMask s.cfg e })
end

