-- ==== Sys2Proof/Laws/Encode.lean ====
section
/-! SUPPORT. Lengths of encodings, and what each byte order helper and each reader of a field says. -/
namespace Sys2Proof

@[simp] theorem length_leBytes (n : Nat) (v : BitVec (8 * n)) : (leBytes n v).length = n := by
  induction n with
  | zero => rfl
  | succ n ih => simp [leBytes, ih]

/-- R149: the payload bytes of a STATUS, counted by the presence of its fields. -/
theorem length_statusBytes (w : StatusWire) :
    (statusBytes w).length = 2 + 2 * w.mask.isSome.toNat + 8 * w.runtime.isSome.toNat
      + 2 * w.batt.isSome.toNat + 4 * w.humTemp.isSome.toNat := by
  obtain ⟨sw, mask, runtime, batt, humTemp⟩ := w
  simp only [statusBytes, List.length_append, length_leBytes]
  cases mask <;> cases runtime <;> cases batt <;> cases humTemp <;> simp [optBytes]

/-- R65: a field that is there when its bit is set. -/
theorem isSome_presence {α : Type} (b : Bool) (v : α) : (if b = true then some v else none).isSome = b := by
  cases b <;> rfl

/-- R65: the bytes of a field that is there when its bit is set. -/
theorem optBytes_presence {α : Type} (f : α → List Byte) (b : Bool) (v : α) :
    optBytes f (if b = true then some v else none) = if b = true then f v else [] := by
  cases b <;> rfl

/-- R146, R147: the payload of a STATUS, field by field. -/
theorem statusBytes_statusWire (c : Config) (errs : Half) (p : StatusRecord) :
    statusBytes (statusWire c errs p) =
      leBytes 2 (mergeErrorBit errs p.sw)
        ++ (if statusBit (mergeErrorBit errs p.sw) sErr then leBytes 2 errs else [])
        ++ (if statusBit (mergeErrorBit errs p.sw) c.sRuntime then leBytes 4 p.elapsed ++ leBytes 4 p.wake else [])
        ++ (if statusBit (mergeErrorBit errs p.sw) c.sBatt then leBytes 2 p.batt else [])
        ++ (if statusBit (mergeErrorBit errs p.sw) c.sHumTemp then leBytes 2 p.hum ++ leBytes 2 p.temp else []) := by
  simp only [statusBytes, statusWire, optBytes_presence]

/-- R149: header, opcode and payload of a STATUS have the length the formula gives. -/
theorem length_statusWire (c : Config) (errs : Half) (p : StatusRecord) :
    3 + (statusBytes (statusWire c errs p)).length = statusLength c (mergeErrorBit errs p.sw) := by
  rw [length_statusBytes]
  simp only [statusWire, statusLength, isSome_presence]
  omega

/-- R149: a STATUS frame has 5 to 21 bytes. -/
theorem statusLength_bounds (c : Config) (sw : Half) : 5 ≤ statusLength c sw ∧ statusLength c sw ≤ 21 := by
  simp only [statusLength]
  cases statusBit sw sErr <;> cases statusBit sw c.sRuntime <;> cases statusBit sw c.sBatt <;>
    cases statusBit sw c.sHumTemp <;> simp

/-- R43: the id field of a header byte is the id it was made from. -/
theorem headerId_headerByte (v : BitVec 3) (i : BitVec 5) : headerId (headerByte v i) = i := by
  revert v i; decide

/-- R43: the version field of a header byte is the version it was made from. -/
theorem headerVersion_headerByte (v : BitVec 3) (i : BitVec 5) : headerVersion (headerByte v i) = v := by
  revert v i; decide

/-- R42: a 16-bit field read back from its bytes. -/
theorem takeHalf_leBytes (v : Half) (rest : List Byte) : takeHalf (leBytes 2 v ++ rest) = some (v, rest) := by
  simp only [leBytes, List.cons_append, List.nil_append, takeHalf, half]
  congr 2
  ext i hi
  simp only [BitVec.getElem_append]
  split <;> simp <;> grind

/-- R42 (D6): a 32-bit field read back from its bytes. -/
theorem takeWord_leBytes (v : Word) (rest : List Byte) : takeWord (leBytes 4 v ++ rest) = some (v, rest) := by
  simp only [leBytes, List.cons_append, List.nil_append, takeWord, word]
  congr 2
  ext i hi
  simp only [BitVec.getElem_append]
  split <;> (try split) <;> (try split) <;> simp <;> grind

end Sys2Proof
end

