-- ==== Sys2Proof/Laws/Memory.lean ====
section
/-! SUPPORT. The frame spaces: a read after a write, what a write leaves alone, the canonical form, and whole frames. -/
namespace Sys2Proof.Machine

/-! ### One byte -/

@[simp] theorem Memory.read_nil (a : Nat) : Memory.read [] a = none := rfl

/-- A read after a write: the byte written at its own offset, and the old byte everywhere else. -/
theorem Memory.read_write (m : Memory) (a b : Nat) (v : Byte) :
    (m.write a v).read b = if b = a then some v else m.read b := by
  induction m with
  | nil => simp [Memory.write, Memory.read]
  | cons c m ih =>
    obtain ⟨k, w⟩ := c
    simp only [Memory.write]
    split
    · simp [Memory.read]
    · split
      · simp only [Memory.read]; split <;> simp_all
      · simp only [Memory.read, ih]; grind

/-- Writing adds no offset but its own. -/
theorem Memory.mem_write {m : Memory} {a : Nat} {v : Byte} {c : Host.Cell} (h : c ∈ m.write a v) : c = (a, v) ∨ c ∈ m := by
  induction m with
  | nil => simpa [Memory.write] using h
  | cons d m ih =>
    obtain ⟨k, w⟩ := d
    simp only [Memory.write] at h
    split at h
    · simpa using h
    · split at h
      · simp only [List.mem_cons] at h ⊢; tauto
      · simp only [List.mem_cons] at h ⊢; tauto

/-- A write keeps the canonical form. -/
theorem Memory.wf_write {m : Memory} (h : m.wf) (a : Nat) (v : Byte) : (m.write a v).wf := by
  induction m with
  | nil => simp [Memory.write, Memory.wf]
  | cons c m ih =>
    obtain ⟨k, w⟩ := c
    simp only [Memory.wf, List.map_cons, List.pairwise_cons] at h
    simp only [Memory.write]
    split
    · rename_i hak
      simp only [Memory.wf, List.map_cons, List.pairwise_cons, List.mem_cons, forall_eq_or_imp]
      exact ⟨⟨hak, fun x hx => lt_trans hak (h.1 x hx)⟩, h.1, h.2⟩
    · split
      · rename_i hak
        subst hak
        simpa only [Memory.wf, List.map_cons, List.pairwise_cons] using h
      · rename_i h1 h2
        simp only [Memory.wf, List.map_cons, List.pairwise_cons]
        refine ⟨fun x hx => ?_, ih h.2⟩
        obtain ⟨c, hc, rfl⟩ := List.mem_map.1 hx
        rcases Memory.mem_write hc with rfl | hc
        · show k < a; omega
        · exact h.1 _ (List.mem_map_of_mem hc)

theorem Memory.wf_nil : Memory.wf [] := List.Pairwise.nil

/-! ### Consecutive bytes -/

/-- What reading gives after consecutive bytes are written. -/
theorem Memory.read_writeBytes (m : Memory) (a b : Nat) (bs : List Byte) :
    (m.writeBytes a bs).read b = if a ≤ b ∧ b < a + bs.length then bs[b - a]? else m.read b := by
  induction bs generalizing m a with
  | nil => simp [Memory.writeBytes]
  | cons x bs ih =>
    simp only [Memory.writeBytes, ih, Memory.read_write, List.length_cons]
    by_cases hab : b = a
    · subst hab; simp
    · by_cases h1 : a + 1 ≤ b ∧ b < a + 1 + bs.length
      · rw [if_pos h1, if_pos (by omega)]
        obtain ⟨k, rfl⟩ : ∃ k, b = a + 1 + k := ⟨b - (a + 1), by omega⟩
        rw [show a + 1 + k - (a + 1) = k by omega, show a + 1 + k - a = k + 1 by omega]
        simp
      · rw [if_neg h1, if_neg hab, if_neg (by omega)]

theorem Memory.wf_writeBytes {m : Memory} (h : m.wf) (a : Nat) (bs : List Byte) : (m.writeBytes a bs).wf := by
  induction bs generalizing m a with
  | nil => exact h
  | cons x bs ih => exact ih (Memory.wf_write h a x) (a + 1)

theorem Memory.mem_writeBytes {m : Memory} {a : Nat} {bs : List Byte} {c : Host.Cell} (h : c ∈ m.writeBytes a bs) :
    (a ≤ c.1 ∧ c.1 < a + bs.length) ∨ c ∈ m := by
  induction bs generalizing m a with
  | nil => exact Or.inr h
  | cons x bs ih =>
    simp only [List.length_cons]
    rcases ih h with hc | hc
    · exact Or.inl (by omega)
    · rcases Memory.mem_write hc with rfl | hc
      · exact Or.inl (by simp)
      · exact Or.inr hc

/-- Reading back consecutive bytes succeeds exactly when each has a value. -/
theorem Memory.readBytes_eq_some {m : Memory} {a n : Nat} {bs : List Byte} :
    m.readBytes a n = some bs ↔ bs.length = n ∧ ∀ i, i < n → m.read (a + i) = bs[i]? := by
  induction n generalizing a bs with
  | zero => cases bs <;> simp [Memory.readBytes]
  | succ n ih =>
    simp only [Memory.readBytes]
    constructor
    · intro h
      split at h
      · rename_i b cs hb hcs
        obtain ⟨hl, hr⟩ := ih.1 hcs
        cases h
        refine ⟨by simp [hl], fun i hi => ?_⟩
        cases i with
        | zero => simpa using hb
        | succ i => simpa [Nat.add_assoc, Nat.add_comm 1 i] using hr i (by omega)
      · cases h
      · cases h
    · rintro ⟨hl, hr⟩
      obtain _ | ⟨b, cs⟩ := bs
      · simp at hl
      · have h0 := hr 0 (by omega)
        have hcs : m.readBytes (a + 1) n = some cs := ih.2 ⟨by simpa using hl, fun i hi => by
          simpa [Nat.add_assoc, Nat.add_comm 1 i] using hr (i + 1) (by omega)⟩
        simp only [Nat.add_zero, List.getElem?_cons_zero] at h0
        rw [h0, hcs]

theorem Memory.readBytes_length {m : Memory} {a n : Nat} {bs : List Byte} (h : m.readBytes a n = some bs) : bs.length = n :=
  (Memory.readBytes_eq_some.1 h).1

/-- Reading succeeds when every byte has a value. -/
theorem Memory.readBytes_isSome {m : Memory} {a n : Nat} (h : ∀ i, i < n → (m.read (a + i)).isSome) :
    ∃ bs, m.readBytes a n = some bs := by
  induction n generalizing a with
  | zero => exact ⟨[], rfl⟩
  | succ n ih =>
    obtain ⟨cs, hcs⟩ := ih (a := a + 1) (fun i hi => by simpa [Nat.add_assoc, Nat.add_comm 1 i] using h (i + 1) (by omega))
    obtain ⟨b, hb⟩ := Option.isSome_iff_exists.1 (h 0 (by omega))
    exact ⟨b :: cs, by simp only [Memory.readBytes]; rw [show m.read a = some b by simpa using hb, hcs]⟩

/-- A frame written and read back in full. -/
theorem Memory.readBytes_writeBytes (m : Memory) (a : Nat) (bs : List Byte) :
    (m.writeBytes a bs).readBytes a bs.length = some bs :=
  Memory.readBytes_eq_some.2 ⟨rfl, fun i hi => by
    rw [Memory.read_writeBytes, if_pos ⟨by omega, by omega⟩, Nat.add_sub_cancel_left]⟩

/-! ### Whole frames -/

theorem Memory.read_ofBytes (bs : List Byte) (a : Nat) : (Memory.ofBytes bs).read a = bs[a]? := by
  rw [Memory.ofBytes, Memory.read_writeBytes]
  split
  · simp
  · rename_i h
    rw [Memory.read_nil, List.getElem?_eq_none (by omega)]

theorem Memory.wf_ofBytes (bs : List Byte) : (Memory.ofBytes bs).wf := Memory.wf_writeBytes Memory.wf_nil 0 bs

theorem Memory.mem_ofBytes {bs : List Byte} {c : Host.Cell} (h : c ∈ Memory.ofBytes bs) : c.1 < bs.length := by
  rcases Memory.mem_writeBytes h with h | h
  · omega
  · cases h

/-- The command stream of a received frame: its bytes from the cursor on. -/
theorem Context.stream_ofBytes (bs : List Byte) (cur : Nat) :
    Context.stream { rx := Memory.ofBytes bs, rxLen := bs.length, cur := cur } = some (bs.drop cur) := by
  simp only [Context.stream]
  exact Memory.readBytes_eq_some.2 ⟨by simp, fun i _ => by rw [Memory.read_ofBytes, List.getElem?_drop]⟩

theorem Context.byteAt_ofBytes (bs : List Byte) (cur a : Nat) (h : a < bs.length) :
    Context.byteAt { rx := Memory.ofBytes bs, rxLen := bs.length, cur := cur } a = some bs[a] := by
  simp [Context.byteAt, h, Memory.read_ofBytes]

/-! ### The transmit frame -/

/-- R32: a byte that was written reads as what was written. -/
theorem State.txByte_of_read {s : State} {a : Nat} {b : Byte} (h : s.tx.read a = some b) : s.txByte a = b := by
  simp only [State.txByte, h]

@[simp] theorem State.length_txFrame (s : State) : s.txFrame.length = s.txLen := by simp [State.txFrame]

theorem State.getElem?_txFrame (s : State) {a : Nat} (h : a < s.txLen) : s.txFrame[a]? = some (s.txByte a) := by
  simp [State.txFrame, h]

/-- R193: a frame written in full is handed over as it was written. -/
theorem State.txFrame_of_readBytes {s : State} {frame : List Byte} (h : s.tx.readBytes 0 s.txLen = some frame) :
    s.txFrame = frame := by
  obtain ⟨hl, hr⟩ := Memory.readBytes_eq_some.1 h
  refine List.ext_getElem? fun a => ?_
  by_cases ha : a < s.txLen
  · have hb : s.tx.read a = some frame[a] := by
      have h0 := hr a ha
      rwa [Nat.zero_add, List.getElem?_eq_getElem (by omega)] at h0
    rw [s.getElem?_txFrame ha, State.txByte_of_read hb, List.getElem?_eq_getElem]
  · rw [List.getElem?_eq_none (by simp; omega), List.getElem?_eq_none (by omega)]

end Sys2Proof.Machine
end

