-- ==== Sys2Proof/Laws/State.lean ====
section
/-! SUPPORT. What each update of the state does to each field: one lemma for each, true by unfolding the update once. -/
namespace Sys2Proof.Machine

/-! ### setLastRx -/

@[simp] theorem State.setLastRx_cfg (s : State) (v : Byte) : (s.setLastRx v).cfg = s.cfg := rfl
@[simp] theorem State.setLastRx_lastRx (s : State) (v : Byte) : (s.setLastRx v).lastRx = v := rfl
@[simp] theorem State.setLastRx_lastTx (s : State) (v : Byte) : (s.setLastRx v).lastTx = s.lastTx := rfl
@[simp] theorem State.setLastRx_errCur (s : State) (v : Byte) : (s.setLastRx v).errCur = s.errCur := rfl
@[simp] theorem State.setLastRx_errPrev (s : State) (v : Byte) : (s.setLastRx v).errPrev = s.errPrev := rfl
@[simp] theorem State.setLastRx_rstCnt (s : State) (v : Byte) : (s.setLastRx v).rstCnt = s.rstCnt := rfl
@[simp] theorem State.setLastRx_depth (s : State) (v : Byte) : (s.setLastRx v).depth = s.depth := rfl
@[simp] theorem State.setLastRx_ctxs (s : State) (v : Byte) : (s.setLastRx v).ctxs = s.ctxs := rfl
@[simp] theorem State.setLastRx_sessions (s : State) (v : Byte) : (s.setLastRx v).sessions = s.sessions := rfl
@[simp] theorem State.setLastRx_tx (s : State) (v : Byte) : (s.setLastRx v).tx = s.tx := rfl
@[simp] theorem State.setLastRx_txLen (s : State) (v : Byte) : (s.setLastRx v).txLen = s.txLen := rfl
@[simp] theorem State.setLastRx_env (s : State) (v : Byte) : (s.setLastRx v).env = s.env := rfl

/-! ### setLastTx -/

@[simp] theorem State.setLastTx_cfg (s : State) (v : Byte) : (s.setLastTx v).cfg = s.cfg := rfl
@[simp] theorem State.setLastTx_lastRx (s : State) (v : Byte) : (s.setLastTx v).lastRx = s.lastRx := rfl
@[simp] theorem State.setLastTx_lastTx (s : State) (v : Byte) : (s.setLastTx v).lastTx = v := rfl
@[simp] theorem State.setLastTx_errCur (s : State) (v : Byte) : (s.setLastTx v).errCur = s.errCur := rfl
@[simp] theorem State.setLastTx_errPrev (s : State) (v : Byte) : (s.setLastTx v).errPrev = s.errPrev := rfl
@[simp] theorem State.setLastTx_rstCnt (s : State) (v : Byte) : (s.setLastTx v).rstCnt = s.rstCnt := rfl
@[simp] theorem State.setLastTx_depth (s : State) (v : Byte) : (s.setLastTx v).depth = s.depth := rfl
@[simp] theorem State.setLastTx_ctxs (s : State) (v : Byte) : (s.setLastTx v).ctxs = s.ctxs := rfl
@[simp] theorem State.setLastTx_sessions (s : State) (v : Byte) : (s.setLastTx v).sessions = s.sessions := rfl
@[simp] theorem State.setLastTx_tx (s : State) (v : Byte) : (s.setLastTx v).tx = s.tx := rfl
@[simp] theorem State.setLastTx_txLen (s : State) (v : Byte) : (s.setLastTx v).txLen = s.txLen := rfl
@[simp] theorem State.setLastTx_env (s : State) (v : Byte) : (s.setLastTx v).env = s.env := rfl

/-! ### setErrCur -/

@[simp] theorem State.setErrCur_cfg (s : State) (v : Half) : (s.setErrCur v).cfg = s.cfg := rfl
@[simp] theorem State.setErrCur_lastRx (s : State) (v : Half) : (s.setErrCur v).lastRx = s.lastRx := rfl
@[simp] theorem State.setErrCur_lastTx (s : State) (v : Half) : (s.setErrCur v).lastTx = s.lastTx := rfl
@[simp] theorem State.setErrCur_errCur (s : State) (v : Half) : (s.setErrCur v).errCur = v := rfl
@[simp] theorem State.setErrCur_errPrev (s : State) (v : Half) : (s.setErrCur v).errPrev = s.errPrev := rfl
@[simp] theorem State.setErrCur_rstCnt (s : State) (v : Half) : (s.setErrCur v).rstCnt = s.rstCnt := rfl
@[simp] theorem State.setErrCur_depth (s : State) (v : Half) : (s.setErrCur v).depth = s.depth := rfl
@[simp] theorem State.setErrCur_ctxs (s : State) (v : Half) : (s.setErrCur v).ctxs = s.ctxs := rfl
@[simp] theorem State.setErrCur_sessions (s : State) (v : Half) : (s.setErrCur v).sessions = s.sessions := rfl
@[simp] theorem State.setErrCur_tx (s : State) (v : Half) : (s.setErrCur v).tx = s.tx := rfl
@[simp] theorem State.setErrCur_txLen (s : State) (v : Half) : (s.setErrCur v).txLen = s.txLen := rfl
@[simp] theorem State.setErrCur_env (s : State) (v : Half) : (s.setErrCur v).env = s.env := rfl

/-! ### setErrPrev -/

@[simp] theorem State.setErrPrev_cfg (s : State) (v : Half) : (s.setErrPrev v).cfg = s.cfg := rfl
@[simp] theorem State.setErrPrev_lastRx (s : State) (v : Half) : (s.setErrPrev v).lastRx = s.lastRx := rfl
@[simp] theorem State.setErrPrev_lastTx (s : State) (v : Half) : (s.setErrPrev v).lastTx = s.lastTx := rfl
@[simp] theorem State.setErrPrev_errCur (s : State) (v : Half) : (s.setErrPrev v).errCur = s.errCur := rfl
@[simp] theorem State.setErrPrev_errPrev (s : State) (v : Half) : (s.setErrPrev v).errPrev = v := rfl
@[simp] theorem State.setErrPrev_rstCnt (s : State) (v : Half) : (s.setErrPrev v).rstCnt = s.rstCnt := rfl
@[simp] theorem State.setErrPrev_depth (s : State) (v : Half) : (s.setErrPrev v).depth = s.depth := rfl
@[simp] theorem State.setErrPrev_ctxs (s : State) (v : Half) : (s.setErrPrev v).ctxs = s.ctxs := rfl
@[simp] theorem State.setErrPrev_sessions (s : State) (v : Half) : (s.setErrPrev v).sessions = s.sessions := rfl
@[simp] theorem State.setErrPrev_tx (s : State) (v : Half) : (s.setErrPrev v).tx = s.tx := rfl
@[simp] theorem State.setErrPrev_txLen (s : State) (v : Half) : (s.setErrPrev v).txLen = s.txLen := rfl
@[simp] theorem State.setErrPrev_env (s : State) (v : Half) : (s.setErrPrev v).env = s.env := rfl

/-! ### setRstCnt -/

@[simp] theorem State.setRstCnt_cfg (s : State) (v : Byte) : (s.setRstCnt v).cfg = s.cfg := rfl
@[simp] theorem State.setRstCnt_lastRx (s : State) (v : Byte) : (s.setRstCnt v).lastRx = s.lastRx := rfl
@[simp] theorem State.setRstCnt_lastTx (s : State) (v : Byte) : (s.setRstCnt v).lastTx = s.lastTx := rfl
@[simp] theorem State.setRstCnt_errCur (s : State) (v : Byte) : (s.setRstCnt v).errCur = s.errCur := rfl
@[simp] theorem State.setRstCnt_errPrev (s : State) (v : Byte) : (s.setRstCnt v).errPrev = s.errPrev := rfl
@[simp] theorem State.setRstCnt_rstCnt (s : State) (v : Byte) : (s.setRstCnt v).rstCnt = v := rfl
@[simp] theorem State.setRstCnt_depth (s : State) (v : Byte) : (s.setRstCnt v).depth = s.depth := rfl
@[simp] theorem State.setRstCnt_ctxs (s : State) (v : Byte) : (s.setRstCnt v).ctxs = s.ctxs := rfl
@[simp] theorem State.setRstCnt_sessions (s : State) (v : Byte) : (s.setRstCnt v).sessions = s.sessions := rfl
@[simp] theorem State.setRstCnt_tx (s : State) (v : Byte) : (s.setRstCnt v).tx = s.tx := rfl
@[simp] theorem State.setRstCnt_txLen (s : State) (v : Byte) : (s.setRstCnt v).txLen = s.txLen := rfl
@[simp] theorem State.setRstCnt_env (s : State) (v : Byte) : (s.setRstCnt v).env = s.env := rfl

/-! ### setDepth -/

@[simp] theorem State.setDepth_cfg (s : State) (v : Nat) : (s.setDepth v).cfg = s.cfg := rfl
@[simp] theorem State.setDepth_lastRx (s : State) (v : Nat) : (s.setDepth v).lastRx = s.lastRx := rfl
@[simp] theorem State.setDepth_lastTx (s : State) (v : Nat) : (s.setDepth v).lastTx = s.lastTx := rfl
@[simp] theorem State.setDepth_errCur (s : State) (v : Nat) : (s.setDepth v).errCur = s.errCur := rfl
@[simp] theorem State.setDepth_errPrev (s : State) (v : Nat) : (s.setDepth v).errPrev = s.errPrev := rfl
@[simp] theorem State.setDepth_rstCnt (s : State) (v : Nat) : (s.setDepth v).rstCnt = s.rstCnt := rfl
@[simp] theorem State.setDepth_depth (s : State) (v : Nat) : (s.setDepth v).depth = v := rfl
@[simp] theorem State.setDepth_ctxs (s : State) (v : Nat) : (s.setDepth v).ctxs = s.ctxs := rfl
@[simp] theorem State.setDepth_sessions (s : State) (v : Nat) : (s.setDepth v).sessions = s.sessions := rfl
@[simp] theorem State.setDepth_tx (s : State) (v : Nat) : (s.setDepth v).tx = s.tx := rfl
@[simp] theorem State.setDepth_txLen (s : State) (v : Nat) : (s.setDepth v).txLen = s.txLen := rfl
@[simp] theorem State.setDepth_env (s : State) (v : Nat) : (s.setDepth v).env = s.env := rfl

/-! ### setCtxs -/

@[simp] theorem State.setCtxs_cfg (s : State) (v : List Context) : (s.setCtxs v).cfg = s.cfg := rfl
@[simp] theorem State.setCtxs_lastRx (s : State) (v : List Context) : (s.setCtxs v).lastRx = s.lastRx := rfl
@[simp] theorem State.setCtxs_lastTx (s : State) (v : List Context) : (s.setCtxs v).lastTx = s.lastTx := rfl
@[simp] theorem State.setCtxs_errCur (s : State) (v : List Context) : (s.setCtxs v).errCur = s.errCur := rfl
@[simp] theorem State.setCtxs_errPrev (s : State) (v : List Context) : (s.setCtxs v).errPrev = s.errPrev := rfl
@[simp] theorem State.setCtxs_rstCnt (s : State) (v : List Context) : (s.setCtxs v).rstCnt = s.rstCnt := rfl
@[simp] theorem State.setCtxs_depth (s : State) (v : List Context) : (s.setCtxs v).depth = s.depth := rfl
@[simp] theorem State.setCtxs_ctxs (s : State) (v : List Context) : (s.setCtxs v).ctxs = v := rfl
@[simp] theorem State.setCtxs_sessions (s : State) (v : List Context) : (s.setCtxs v).sessions = s.sessions := rfl
@[simp] theorem State.setCtxs_tx (s : State) (v : List Context) : (s.setCtxs v).tx = s.tx := rfl
@[simp] theorem State.setCtxs_txLen (s : State) (v : List Context) : (s.setCtxs v).txLen = s.txLen := rfl
@[simp] theorem State.setCtxs_env (s : State) (v : List Context) : (s.setCtxs v).env = s.env := rfl

/-! ### setSessions -/

@[simp] theorem State.setSessions_cfg (s : State) (v : List Session) : (s.setSessions v).cfg = s.cfg := rfl
@[simp] theorem State.setSessions_lastRx (s : State) (v : List Session) : (s.setSessions v).lastRx = s.lastRx := rfl
@[simp] theorem State.setSessions_lastTx (s : State) (v : List Session) : (s.setSessions v).lastTx = s.lastTx := rfl
@[simp] theorem State.setSessions_errCur (s : State) (v : List Session) : (s.setSessions v).errCur = s.errCur := rfl
@[simp] theorem State.setSessions_errPrev (s : State) (v : List Session) : (s.setSessions v).errPrev = s.errPrev := rfl
@[simp] theorem State.setSessions_rstCnt (s : State) (v : List Session) : (s.setSessions v).rstCnt = s.rstCnt := rfl
@[simp] theorem State.setSessions_depth (s : State) (v : List Session) : (s.setSessions v).depth = s.depth := rfl
@[simp] theorem State.setSessions_ctxs (s : State) (v : List Session) : (s.setSessions v).ctxs = s.ctxs := rfl
@[simp] theorem State.setSessions_sessions (s : State) (v : List Session) : (s.setSessions v).sessions = v := rfl
@[simp] theorem State.setSessions_tx (s : State) (v : List Session) : (s.setSessions v).tx = s.tx := rfl
@[simp] theorem State.setSessions_txLen (s : State) (v : List Session) : (s.setSessions v).txLen = s.txLen := rfl
@[simp] theorem State.setSessions_env (s : State) (v : List Session) : (s.setSessions v).env = s.env := rfl

/-! ### setTx -/

@[simp] theorem State.setTx_cfg (s : State) (v : Memory) : (s.setTx v).cfg = s.cfg := rfl
@[simp] theorem State.setTx_lastRx (s : State) (v : Memory) : (s.setTx v).lastRx = s.lastRx := rfl
@[simp] theorem State.setTx_lastTx (s : State) (v : Memory) : (s.setTx v).lastTx = s.lastTx := rfl
@[simp] theorem State.setTx_errCur (s : State) (v : Memory) : (s.setTx v).errCur = s.errCur := rfl
@[simp] theorem State.setTx_errPrev (s : State) (v : Memory) : (s.setTx v).errPrev = s.errPrev := rfl
@[simp] theorem State.setTx_rstCnt (s : State) (v : Memory) : (s.setTx v).rstCnt = s.rstCnt := rfl
@[simp] theorem State.setTx_depth (s : State) (v : Memory) : (s.setTx v).depth = s.depth := rfl
@[simp] theorem State.setTx_ctxs (s : State) (v : Memory) : (s.setTx v).ctxs = s.ctxs := rfl
@[simp] theorem State.setTx_sessions (s : State) (v : Memory) : (s.setTx v).sessions = s.sessions := rfl
@[simp] theorem State.setTx_tx (s : State) (v : Memory) : (s.setTx v).tx = v := rfl
@[simp] theorem State.setTx_txLen (s : State) (v : Memory) : (s.setTx v).txLen = s.txLen := rfl
@[simp] theorem State.setTx_env (s : State) (v : Memory) : (s.setTx v).env = s.env := rfl

/-! ### setTxLen -/

@[simp] theorem State.setTxLen_cfg (s : State) (v : Nat) : (s.setTxLen v).cfg = s.cfg := rfl
@[simp] theorem State.setTxLen_lastRx (s : State) (v : Nat) : (s.setTxLen v).lastRx = s.lastRx := rfl
@[simp] theorem State.setTxLen_lastTx (s : State) (v : Nat) : (s.setTxLen v).lastTx = s.lastTx := rfl
@[simp] theorem State.setTxLen_errCur (s : State) (v : Nat) : (s.setTxLen v).errCur = s.errCur := rfl
@[simp] theorem State.setTxLen_errPrev (s : State) (v : Nat) : (s.setTxLen v).errPrev = s.errPrev := rfl
@[simp] theorem State.setTxLen_rstCnt (s : State) (v : Nat) : (s.setTxLen v).rstCnt = s.rstCnt := rfl
@[simp] theorem State.setTxLen_depth (s : State) (v : Nat) : (s.setTxLen v).depth = s.depth := rfl
@[simp] theorem State.setTxLen_ctxs (s : State) (v : Nat) : (s.setTxLen v).ctxs = s.ctxs := rfl
@[simp] theorem State.setTxLen_sessions (s : State) (v : Nat) : (s.setTxLen v).sessions = s.sessions := rfl
@[simp] theorem State.setTxLen_tx (s : State) (v : Nat) : (s.setTxLen v).tx = s.tx := rfl
@[simp] theorem State.setTxLen_txLen (s : State) (v : Nat) : (s.setTxLen v).txLen = v := rfl
@[simp] theorem State.setTxLen_env (s : State) (v : Nat) : (s.setTxLen v).env = s.env := rfl

/-! ### setEnv -/

@[simp] theorem State.setEnv_cfg (s : State) (v : Env) : (s.setEnv v).cfg = s.cfg := rfl
@[simp] theorem State.setEnv_lastRx (s : State) (v : Env) : (s.setEnv v).lastRx = s.lastRx := rfl
@[simp] theorem State.setEnv_lastTx (s : State) (v : Env) : (s.setEnv v).lastTx = s.lastTx := rfl
@[simp] theorem State.setEnv_errCur (s : State) (v : Env) : (s.setEnv v).errCur = s.errCur := rfl
@[simp] theorem State.setEnv_errPrev (s : State) (v : Env) : (s.setEnv v).errPrev = s.errPrev := rfl
@[simp] theorem State.setEnv_rstCnt (s : State) (v : Env) : (s.setEnv v).rstCnt = s.rstCnt := rfl
@[simp] theorem State.setEnv_depth (s : State) (v : Env) : (s.setEnv v).depth = s.depth := rfl
@[simp] theorem State.setEnv_ctxs (s : State) (v : Env) : (s.setEnv v).ctxs = s.ctxs := rfl
@[simp] theorem State.setEnv_sessions (s : State) (v : Env) : (s.setEnv v).sessions = s.sessions := rfl
@[simp] theorem State.setEnv_tx (s : State) (v : Env) : (s.setEnv v).tx = s.tx := rfl
@[simp] theorem State.setEnv_txLen (s : State) (v : Env) : (s.setEnv v).txLen = s.txLen := rfl
@[simp] theorem State.setEnv_env (s : State) (v : Env) : (s.setEnv v).env = v := rfl

/-! ### raise -/

@[simp] theorem State.raise_cfg (s : State) (e : ErrorKind) : (s.raise e).cfg = s.cfg := rfl
@[simp] theorem State.raise_lastRx (s : State) (e : ErrorKind) : (s.raise e).lastRx = s.lastRx := rfl
@[simp] theorem State.raise_lastTx (s : State) (e : ErrorKind) : (s.raise e).lastTx = s.lastTx := rfl
@[simp] theorem State.raise_errCur (s : State) (e : ErrorKind) : (s.raise e).errCur = s.errCur ||| errorMask s.cfg e := rfl
@[simp] theorem State.raise_errPrev (s : State) (e : ErrorKind) : (s.raise e).errPrev = s.errPrev := rfl
@[simp] theorem State.raise_rstCnt (s : State) (e : ErrorKind) : (s.raise e).rstCnt = s.rstCnt := rfl
@[simp] theorem State.raise_depth (s : State) (e : ErrorKind) : (s.raise e).depth = s.depth := rfl
@[simp] theorem State.raise_ctxs (s : State) (e : ErrorKind) : (s.raise e).ctxs = s.ctxs := rfl
@[simp] theorem State.raise_sessions (s : State) (e : ErrorKind) : (s.raise e).sessions = s.sessions := rfl
@[simp] theorem State.raise_tx (s : State) (e : ErrorKind) : (s.raise e).tx = s.tx := rfl
@[simp] theorem State.raise_txLen (s : State) (e : ErrorKind) : (s.raise e).txLen = s.txLen := rfl
@[simp] theorem State.raise_env (s : State) (e : ErrorKind) : (s.raise e).env = s.env := rfl

/-! ### setPhase -/

@[simp] theorem State.setPhase_cfg (s : State) (p : Phase) : (s.setPhase p).cfg = s.cfg := by unfold State.setPhase; split <;> rfl
@[simp] theorem State.setPhase_lastRx (s : State) (p : Phase) : (s.setPhase p).lastRx = s.lastRx := by unfold State.setPhase; split <;> rfl
@[simp] theorem State.setPhase_lastTx (s : State) (p : Phase) : (s.setPhase p).lastTx = s.lastTx := by unfold State.setPhase; split <;> rfl
@[simp] theorem State.setPhase_errCur (s : State) (p : Phase) : (s.setPhase p).errCur = s.errCur := by unfold State.setPhase; split <;> rfl
@[simp] theorem State.setPhase_errPrev (s : State) (p : Phase) : (s.setPhase p).errPrev = s.errPrev := by unfold State.setPhase; split <;> rfl
@[simp] theorem State.setPhase_rstCnt (s : State) (p : Phase) : (s.setPhase p).rstCnt = s.rstCnt := by unfold State.setPhase; split <;> rfl
@[simp] theorem State.setPhase_depth (s : State) (p : Phase) : (s.setPhase p).depth = s.depth := by unfold State.setPhase; split <;> rfl
@[simp] theorem State.setPhase_ctxs (s : State) (p : Phase) : (s.setPhase p).ctxs = s.ctxs := by unfold State.setPhase; split <;> rfl
@[simp] theorem State.setPhase_tx (s : State) (p : Phase) : (s.setPhase p).tx = s.tx := by unfold State.setPhase; split <;> rfl
@[simp] theorem State.setPhase_txLen (s : State) (p : Phase) : (s.setPhase p).txLen = s.txLen := by unfold State.setPhase; split <;> rfl
@[simp] theorem State.setPhase_env (s : State) (p : Phase) : (s.setPhase p).env = s.env := by unfold State.setPhase; split <;> rfl
/-- The innermost session takes the new state; the others stay. -/
theorem State.setPhase_sessions (s : State) (p : Phase) :
    (s.setPhase p).sessions = match s.sessions with
      | [] => []
      | top :: rest => { top with phase := p } :: rest := by
  unfold State.setPhase
  split <;> rename_i h <;> simp [h]
theorem State.setPhase_sessions_cons (s : State) (p : Phase) (top : Session) (rest : List Session)
    (h : s.sessions = top :: rest) : (s.setPhase p).sessions = { top with phase := p } :: rest := by
  rw [State.setPhase_sessions, h]
theorem State.setPhase_sessions_nil (s : State) (p : Phase) (h : s.sessions = []) : (s.setPhase p).sessions = [] := by
  rw [State.setPhase_sessions, h]

/-! ### openSession, pushFrame, popCtx -/

@[simp] theorem State.openSession_cfg (s : State) (r : Request) : (s.openSession r).cfg = s.cfg := rfl
@[simp] theorem State.openSession_lastRx (s : State) (r : Request) : (s.openSession r).lastRx = s.lastRx := rfl
@[simp] theorem State.openSession_lastTx (s : State) (r : Request) : (s.openSession r).lastTx = s.lastTx := rfl
@[simp] theorem State.openSession_errCur (s : State) (r : Request) : (s.openSession r).errCur = s.errCur := rfl
@[simp] theorem State.openSession_errPrev (s : State) (r : Request) : (s.openSession r).errPrev = s.errPrev := rfl
@[simp] theorem State.openSession_rstCnt (s : State) (r : Request) : (s.openSession r).rstCnt = s.rstCnt := rfl
@[simp] theorem State.openSession_depth (s : State) (r : Request) : (s.openSession r).depth = s.depth := rfl
@[simp] theorem State.openSession_ctxs (s : State) (r : Request) : (s.openSession r).ctxs = s.ctxs := rfl
@[simp] theorem State.openSession_sessions (s : State) (r : Request) : (s.openSession r).sessions = { phase := .enter, request := r } :: s.sessions := rfl
@[simp] theorem State.openSession_tx (s : State) (r : Request) : (s.openSession r).tx = s.tx := rfl
@[simp] theorem State.openSession_txLen (s : State) (r : Request) : (s.openSession r).txLen = s.txLen := rfl
@[simp] theorem State.openSession_env (s : State) (r : Request) : (s.openSession r).env = s.env := rfl
@[simp] theorem State.pushFrame_cfg (s : State) (f : List Byte) : (s.pushFrame f).cfg = s.cfg := rfl
@[simp] theorem State.pushFrame_lastRx (s : State) (f : List Byte) : (s.pushFrame f).lastRx = s.lastRx := rfl
@[simp] theorem State.pushFrame_lastTx (s : State) (f : List Byte) : (s.pushFrame f).lastTx = s.lastTx := rfl
@[simp] theorem State.pushFrame_errCur (s : State) (f : List Byte) : (s.pushFrame f).errCur = s.errCur := rfl
@[simp] theorem State.pushFrame_errPrev (s : State) (f : List Byte) : (s.pushFrame f).errPrev = s.errPrev := rfl
@[simp] theorem State.pushFrame_rstCnt (s : State) (f : List Byte) : (s.pushFrame f).rstCnt = s.rstCnt := rfl
@[simp] theorem State.pushFrame_depth (s : State) (f : List Byte) : (s.pushFrame f).depth = s.depth := rfl
@[simp] theorem State.pushFrame_ctxs (s : State) (f : List Byte) : (s.pushFrame f).ctxs = { rx := Memory.ofBytes f, rxLen := f.length, cur := 0 } :: s.ctxs := rfl
@[simp] theorem State.pushFrame_sessions (s : State) (f : List Byte) : (s.pushFrame f).sessions = s.sessions := rfl
@[simp] theorem State.pushFrame_tx (s : State) (f : List Byte) : (s.pushFrame f).tx = s.tx := rfl
@[simp] theorem State.pushFrame_txLen (s : State) (f : List Byte) : (s.pushFrame f).txLen = s.txLen := rfl
@[simp] theorem State.pushFrame_env (s : State) (f : List Byte) : (s.pushFrame f).env = s.env := rfl
@[simp] theorem State.popCtx_cfg (s : State) : s.popCtx.cfg = s.cfg := rfl
@[simp] theorem State.popCtx_lastRx (s : State) : s.popCtx.lastRx = s.lastRx := rfl
@[simp] theorem State.popCtx_lastTx (s : State) : s.popCtx.lastTx = s.lastTx := rfl
@[simp] theorem State.popCtx_errCur (s : State) : s.popCtx.errCur = s.errCur := rfl
@[simp] theorem State.popCtx_errPrev (s : State) : s.popCtx.errPrev = s.errPrev := rfl
@[simp] theorem State.popCtx_rstCnt (s : State) : s.popCtx.rstCnt = s.rstCnt := rfl
@[simp] theorem State.popCtx_depth (s : State) : s.popCtx.depth = s.depth := rfl
@[simp] theorem State.popCtx_ctxs (s : State) : s.popCtx.ctxs = s.ctxs.tail := rfl
@[simp] theorem State.popCtx_sessions (s : State) : s.popCtx.sessions = s.sessions := rfl
@[simp] theorem State.popCtx_tx (s : State) : s.popCtx.tx = s.tx := rfl
@[simp] theorem State.popCtx_txLen (s : State) : s.popCtx.txLen = s.txLen := rfl
@[simp] theorem State.popCtx_env (s : State) : s.popCtx.env = s.env := rfl

/-! ### setCur -/

@[simp] theorem State.setCur_cfg (s : State) (t : Nat) : (s.setCur t).cfg = s.cfg := by unfold State.setCur; split <;> rfl
@[simp] theorem State.setCur_lastRx (s : State) (t : Nat) : (s.setCur t).lastRx = s.lastRx := by unfold State.setCur; split <;> rfl
@[simp] theorem State.setCur_lastTx (s : State) (t : Nat) : (s.setCur t).lastTx = s.lastTx := by unfold State.setCur; split <;> rfl
@[simp] theorem State.setCur_errCur (s : State) (t : Nat) : (s.setCur t).errCur = s.errCur := by unfold State.setCur; split <;> rfl
@[simp] theorem State.setCur_errPrev (s : State) (t : Nat) : (s.setCur t).errPrev = s.errPrev := by unfold State.setCur; split <;> rfl
@[simp] theorem State.setCur_rstCnt (s : State) (t : Nat) : (s.setCur t).rstCnt = s.rstCnt := by unfold State.setCur; split <;> rfl
@[simp] theorem State.setCur_depth (s : State) (t : Nat) : (s.setCur t).depth = s.depth := by unfold State.setCur; split <;> rfl
@[simp] theorem State.setCur_sessions (s : State) (t : Nat) : (s.setCur t).sessions = s.sessions := by unfold State.setCur; split <;> rfl
@[simp] theorem State.setCur_tx (s : State) (t : Nat) : (s.setCur t).tx = s.tx := by unfold State.setCur; split <;> rfl
@[simp] theorem State.setCur_txLen (s : State) (t : Nat) : (s.setCur t).txLen = s.txLen := by unfold State.setCur; split <;> rfl
@[simp] theorem State.setCur_env (s : State) (t : Nat) : (s.setCur t).env = s.env := by unfold State.setCur; split <;> rfl
/-- The innermost cursor moves; every frame and every other context stays. -/
theorem State.setCur_ctxs (s : State) (t : Nat) :
    (s.setCur t).ctxs = match s.ctxs with
      | [] => []
      | ctx :: rest => { ctx with cur := t } :: rest := by
  unfold State.setCur
  split <;> rename_i h <;> simp [h]
theorem State.setCur_ctxs_cons (s : State) (t : Nat) (ctx : Context) (rest : List Context)
    (h : s.ctxs = ctx :: rest) : (s.setCur t).ctxs = { ctx with cur := t } :: rest := by
  rw [State.setCur_ctxs, h]
theorem State.setCur_ctxs_nil (s : State) (t : Nat) (h : s.ctxs = []) : (s.setCur t).ctxs = [] := by
  rw [State.setCur_ctxs, h]

/-! ### advanceCur -/

@[simp] theorem State.advanceCur_cfg (s : State) (n : Nat) : (s.advanceCur n).cfg = s.cfg := by unfold State.advanceCur; split <;> rfl
@[simp] theorem State.advanceCur_lastRx (s : State) (n : Nat) : (s.advanceCur n).lastRx = s.lastRx := by unfold State.advanceCur; split <;> rfl
@[simp] theorem State.advanceCur_lastTx (s : State) (n : Nat) : (s.advanceCur n).lastTx = s.lastTx := by unfold State.advanceCur; split <;> rfl
@[simp] theorem State.advanceCur_errCur (s : State) (n : Nat) : (s.advanceCur n).errCur = s.errCur := by unfold State.advanceCur; split <;> rfl
@[simp] theorem State.advanceCur_errPrev (s : State) (n : Nat) : (s.advanceCur n).errPrev = s.errPrev := by unfold State.advanceCur; split <;> rfl
@[simp] theorem State.advanceCur_rstCnt (s : State) (n : Nat) : (s.advanceCur n).rstCnt = s.rstCnt := by unfold State.advanceCur; split <;> rfl
@[simp] theorem State.advanceCur_depth (s : State) (n : Nat) : (s.advanceCur n).depth = s.depth := by unfold State.advanceCur; split <;> rfl
@[simp] theorem State.advanceCur_sessions (s : State) (n : Nat) : (s.advanceCur n).sessions = s.sessions := by unfold State.advanceCur; split <;> rfl
@[simp] theorem State.advanceCur_tx (s : State) (n : Nat) : (s.advanceCur n).tx = s.tx := by unfold State.advanceCur; split <;> rfl
@[simp] theorem State.advanceCur_txLen (s : State) (n : Nat) : (s.advanceCur n).txLen = s.txLen := by unfold State.advanceCur; split <;> rfl
@[simp] theorem State.advanceCur_env (s : State) (n : Nat) : (s.advanceCur n).env = s.env := by unfold State.advanceCur; split <;> rfl
/-- The innermost cursor moves; every frame and every other context stays. -/
theorem State.advanceCur_ctxs (s : State) (n : Nat) :
    (s.advanceCur n).ctxs = match s.ctxs with
      | [] => []
      | ctx :: rest => { ctx with cur := ctx.cur + n } :: rest := by
  unfold State.advanceCur
  split <;> rename_i h <;> simp [h]
theorem State.advanceCur_ctxs_cons (s : State) (n : Nat) (ctx : Context) (rest : List Context)
    (h : s.ctxs = ctx :: rest) : (s.advanceCur n).ctxs = { ctx with cur := ctx.cur + n } :: rest := by
  rw [State.advanceCur_ctxs, h]
theorem State.advanceCur_ctxs_nil (s : State) (n : Nat) (h : s.ctxs = []) : (s.advanceCur n).ctxs = [] := by
  rw [State.advanceCur_ctxs, h]

/-! ### endDecode -/

@[simp] theorem State.endDecode_cfg (s : State) : s.endDecode.cfg = s.cfg := by simp [State.endDecode]
@[simp] theorem State.endDecode_lastRx (s : State) : s.endDecode.lastRx = s.lastRx := by simp [State.endDecode]
@[simp] theorem State.endDecode_lastTx (s : State) : s.endDecode.lastTx = s.lastTx := by simp [State.endDecode]
@[simp] theorem State.endDecode_errCur (s : State) : s.endDecode.errCur = s.errCur := by simp [State.endDecode]
@[simp] theorem State.endDecode_errPrev (s : State) : s.endDecode.errPrev = s.errPrev := by simp [State.endDecode]
@[simp] theorem State.endDecode_rstCnt (s : State) : s.endDecode.rstCnt = s.rstCnt := by simp [State.endDecode]
@[simp] theorem State.endDecode_depth (s : State) : s.endDecode.depth = s.depth := by simp [State.endDecode]
@[simp] theorem State.endDecode_ctxs (s : State) : s.endDecode.ctxs = s.ctxs.tail := by simp [State.endDecode]
@[simp] theorem State.endDecode_tx (s : State) : s.endDecode.tx = s.tx := by simp [State.endDecode]
@[simp] theorem State.endDecode_txLen (s : State) : s.endDecode.txLen = s.txLen := by simp [State.endDecode]
@[simp] theorem State.endDecode_env (s : State) : s.endDecode.env = s.env := by simp [State.endDecode]
theorem State.endDecode_sessions_cons (s : State) (top : Session) (rest : List Session)
    (h : s.sessions = top :: rest) : s.endDecode.sessions = { top with phase := .exit } :: rest := by
  rw [State.endDecode, State.setPhase_sessions_cons (h := by simpa using h)]
theorem State.endDecode_sessions_nil (s : State) (h : s.sessions = []) : s.endDecode.sessions = [] := by
  rw [State.endDecode, State.setPhase_sessions_nil (h := by simpa using h)]

/-! ### storeFrame -/

@[simp] theorem State.storeFrame_cfg (s : State) (bytes : List Byte) (len : Nat) : (s.storeFrame bytes len).cfg = s.cfg := rfl
@[simp] theorem State.storeFrame_lastRx (s : State) (bytes : List Byte) (len : Nat) : (s.storeFrame bytes len).lastRx = s.lastRx := rfl
@[simp] theorem State.storeFrame_lastTx (s : State) (bytes : List Byte) (len : Nat) : (s.storeFrame bytes len).lastTx = s.lastTx := rfl
@[simp] theorem State.storeFrame_errCur (s : State) (bytes : List Byte) (len : Nat) : (s.storeFrame bytes len).errCur = s.errCur := rfl
@[simp] theorem State.storeFrame_errPrev (s : State) (bytes : List Byte) (len : Nat) : (s.storeFrame bytes len).errPrev = s.errPrev := rfl
@[simp] theorem State.storeFrame_rstCnt (s : State) (bytes : List Byte) (len : Nat) : (s.storeFrame bytes len).rstCnt = s.rstCnt := rfl
@[simp] theorem State.storeFrame_depth (s : State) (bytes : List Byte) (len : Nat) : (s.storeFrame bytes len).depth = s.depth := rfl
@[simp] theorem State.storeFrame_ctxs (s : State) (bytes : List Byte) (len : Nat) : (s.storeFrame bytes len).ctxs = s.ctxs := rfl
@[simp] theorem State.storeFrame_sessions (s : State) (bytes : List Byte) (len : Nat) : (s.storeFrame bytes len).sessions = s.sessions := rfl
@[simp] theorem State.storeFrame_tx (s : State) (bytes : List Byte) (len : Nat) : (s.storeFrame bytes len).tx = s.tx.writeBytes 0 bytes := rfl
@[simp] theorem State.storeFrame_txLen (s : State) (bytes : List Byte) (len : Nat) : (s.storeFrame bytes len).txLen = len := rfl
@[simp] theorem State.storeFrame_env (s : State) (bytes : List Byte) (len : Nat) : (s.storeFrame bytes len).env = s.env := rfl

/-! ### blockReset -/

@[simp] theorem State.blockReset_cfg (s : State) : s.blockReset.cfg = s.cfg := rfl
@[simp] theorem State.blockReset_lastRx (s : State) : s.blockReset.lastRx = 0 := rfl
@[simp] theorem State.blockReset_lastTx (s : State) : s.blockReset.lastTx = 0 := rfl
@[simp] theorem State.blockReset_errCur (s : State) : s.blockReset.errCur = 0 := rfl
@[simp] theorem State.blockReset_errPrev (s : State) : s.blockReset.errPrev = 0 := rfl
@[simp] theorem State.blockReset_rstCnt (s : State) : s.blockReset.rstCnt = 0 := rfl
@[simp] theorem State.blockReset_depth (s : State) : s.blockReset.depth = 0 := rfl
@[simp] theorem State.blockReset_ctxs (s : State) : s.blockReset.ctxs = [] := rfl
@[simp] theorem State.blockReset_sessions (s : State) : s.blockReset.sessions = [] := rfl
@[simp] theorem State.blockReset_tx (s : State) : s.blockReset.tx = [] := rfl
@[simp] theorem State.blockReset_txLen (s : State) : s.blockReset.txLen = 0 := rfl
@[simp] theorem State.blockReset_env (s : State) : s.blockReset.env = { s.env with resets := s.env.resets + 1, resetLine := false } := rfl

end Sys2Proof.Machine
end

