-- ==== Sys2Proof/Laws/Updates.lean ====
section
/-! SUPPORT. What the composed operations do to each field: building and aborting an encode, the sequence check, a
transmission, and the host's operations. -/
namespace Sys2Proof.Machine

/-! ### buildFrame -/

@[simp] theorem State.buildFrame_cfg (s : State) (record : List Byte) (len : Nat) : (s.buildFrame record len).cfg = s.cfg := by simp [State.buildFrame]
@[simp] theorem State.buildFrame_lastRx (s : State) (record : List Byte) (len : Nat) : (s.buildFrame record len).lastRx = s.lastRx := by simp [State.buildFrame]
@[simp] theorem State.buildFrame_lastTx (s : State) (record : List Byte) (len : Nat) : (s.buildFrame record len).lastTx = s.lastTx + 1 := by simp [State.buildFrame]
@[simp] theorem State.buildFrame_errCur (s : State) (record : List Byte) (len : Nat) : (s.buildFrame record len).errCur = s.errCur := by simp [State.buildFrame]
@[simp] theorem State.buildFrame_errPrev (s : State) (record : List Byte) (len : Nat) : (s.buildFrame record len).errPrev = s.errPrev := by simp [State.buildFrame]
@[simp] theorem State.buildFrame_rstCnt (s : State) (record : List Byte) (len : Nat) : (s.buildFrame record len).rstCnt = s.rstCnt := by simp [State.buildFrame]
@[simp] theorem State.buildFrame_depth (s : State) (record : List Byte) (len : Nat) : (s.buildFrame record len).depth = s.depth := by simp [State.buildFrame]
@[simp] theorem State.buildFrame_ctxs (s : State) (record : List Byte) (len : Nat) : (s.buildFrame record len).ctxs = s.ctxs := by simp [State.buildFrame]
@[simp] theorem State.buildFrame_tx (s : State) (record : List Byte) (len : Nat) : (s.buildFrame record len).tx = s.tx.writeBytes 0 (s.txHeader ++ record) := by simp [State.buildFrame]
@[simp] theorem State.buildFrame_txLen (s : State) (record : List Byte) (len : Nat) : (s.buildFrame record len).txLen = len := by simp [State.buildFrame]
@[simp] theorem State.buildFrame_env (s : State) (record : List Byte) (len : Nat) : (s.buildFrame record len).env = s.env := by simp [State.buildFrame]

theorem State.buildFrame_sessions_cons (s : State) (record : List Byte) (len : Nat) (top : Session) (rest : List Session)
    (h : s.sessions = top :: rest) : (s.buildFrame record len).sessions = { top with phase := .transmit } :: rest :=
  State.setPhase_sessions_cons _ _ _ _ (by simpa using h)

/-! ### abortEncode -/

@[simp] theorem State.abortEncode_cfg (s : State) (e : ErrorKind) : (s.abortEncode e).cfg = s.cfg := by simp [State.abortEncode]
@[simp] theorem State.abortEncode_lastRx (s : State) (e : ErrorKind) : (s.abortEncode e).lastRx = s.lastRx := by simp [State.abortEncode]
@[simp] theorem State.abortEncode_lastTx (s : State) (e : ErrorKind) : (s.abortEncode e).lastTx = s.lastTx := by simp [State.abortEncode]
@[simp] theorem State.abortEncode_errCur (s : State) (e : ErrorKind) : (s.abortEncode e).errCur = s.errCur ||| errorMask s.cfg e := by simp [State.abortEncode]
@[simp] theorem State.abortEncode_errPrev (s : State) (e : ErrorKind) : (s.abortEncode e).errPrev = s.errPrev := by simp [State.abortEncode]
@[simp] theorem State.abortEncode_rstCnt (s : State) (e : ErrorKind) : (s.abortEncode e).rstCnt = s.rstCnt := by simp [State.abortEncode]
@[simp] theorem State.abortEncode_depth (s : State) (e : ErrorKind) : (s.abortEncode e).depth = s.depth := by simp [State.abortEncode]
@[simp] theorem State.abortEncode_ctxs (s : State) (e : ErrorKind) : (s.abortEncode e).ctxs = s.ctxs := by simp [State.abortEncode]
@[simp] theorem State.abortEncode_tx (s : State) (e : ErrorKind) : (s.abortEncode e).tx = s.tx := by simp [State.abortEncode]
@[simp] theorem State.abortEncode_txLen (s : State) (e : ErrorKind) : (s.abortEncode e).txLen = s.txLen := by simp [State.abortEncode]
@[simp] theorem State.abortEncode_env (s : State) (e : ErrorKind) : (s.abortEncode e).env = s.env := by simp [State.abortEncode]

theorem State.abortEncode_sessions_cons (s : State) (e : ErrorKind) (top : Session) (rest : List Session)
    (h : s.sessions = top :: rest) : (s.abortEncode e).sessions = { top with phase := .poll } :: rest :=
  State.setPhase_sessions_cons _ _ _ _ (by simpa using h)

/-! ### checkSequence -/

@[simp] theorem State.checkSequence_cfg (s : State) (sq : Byte) : (s.checkSequence sq).cfg = s.cfg := by simp only [State.checkSequence]; split <;> rfl
@[simp] theorem State.checkSequence_lastRx (s : State) (sq : Byte) : (s.checkSequence sq).lastRx = sq := by simp only [State.checkSequence]; split <;> rfl
@[simp] theorem State.checkSequence_lastTx (s : State) (sq : Byte) : (s.checkSequence sq).lastTx = s.lastTx := by simp only [State.checkSequence]; split <;> rfl
@[simp] theorem State.checkSequence_errCur (s : State) (sq : Byte) : (s.checkSequence sq).errCur = if sq ≠ s.expectedSeq then s.errCur ||| errorMask s.cfg .seq else s.errCur := by simp only [State.checkSequence]; split <;> rfl
@[simp] theorem State.checkSequence_errPrev (s : State) (sq : Byte) : (s.checkSequence sq).errPrev = s.errPrev := by simp only [State.checkSequence]; split <;> rfl
@[simp] theorem State.checkSequence_rstCnt (s : State) (sq : Byte) : (s.checkSequence sq).rstCnt = s.rstCnt := by simp only [State.checkSequence]; split <;> rfl
@[simp] theorem State.checkSequence_depth (s : State) (sq : Byte) : (s.checkSequence sq).depth = s.depth := by simp only [State.checkSequence]; split <;> rfl
@[simp] theorem State.checkSequence_ctxs (s : State) (sq : Byte) : (s.checkSequence sq).ctxs = s.ctxs := by simp only [State.checkSequence]; split <;> rfl
@[simp] theorem State.checkSequence_sessions (s : State) (sq : Byte) : (s.checkSequence sq).sessions = s.sessions := by simp only [State.checkSequence]; split <;> rfl
@[simp] theorem State.checkSequence_tx (s : State) (sq : Byte) : (s.checkSequence sq).tx = s.tx := by simp only [State.checkSequence]; split <;> rfl
@[simp] theorem State.checkSequence_txLen (s : State) (sq : Byte) : (s.checkSequence sq).txLen = s.txLen := by simp only [State.checkSequence]; split <;> rfl
@[simp] theorem State.checkSequence_env (s : State) (sq : Byte) : (s.checkSequence sq).env = s.env := by simp only [State.checkSequence]; split <;> rfl

/-! ### acceptFrame -/

@[simp] theorem State.acceptFrame_cfg (s : State) (sq : Byte) : (s.acceptFrame sq).cfg = s.cfg := by simp [State.acceptFrame]
@[simp] theorem State.acceptFrame_lastRx (s : State) (sq : Byte) : (s.acceptFrame sq).lastRx = sq := by simp [State.acceptFrame]
@[simp] theorem State.acceptFrame_lastTx (s : State) (sq : Byte) : (s.acceptFrame sq).lastTx = s.lastTx := by simp [State.acceptFrame]
@[simp] theorem State.acceptFrame_errCur (s : State) (sq : Byte) : (s.acceptFrame sq).errCur = if sq ≠ s.expectedSeq then s.errCur ||| errorMask s.cfg .seq else s.errCur := by simp [State.acceptFrame]
@[simp] theorem State.acceptFrame_errPrev (s : State) (sq : Byte) : (s.acceptFrame sq).errPrev = s.errPrev := by simp [State.acceptFrame]
@[simp] theorem State.acceptFrame_rstCnt (s : State) (sq : Byte) : (s.acceptFrame sq).rstCnt = s.rstCnt := by simp [State.acceptFrame]
@[simp] theorem State.acceptFrame_depth (s : State) (sq : Byte) : (s.acceptFrame sq).depth = s.depth := by simp [State.acceptFrame]
@[simp] theorem State.acceptFrame_tx (s : State) (sq : Byte) : (s.acceptFrame sq).tx = s.tx := by simp [State.acceptFrame]
@[simp] theorem State.acceptFrame_txLen (s : State) (sq : Byte) : (s.acceptFrame sq).txLen = s.txLen := by simp [State.acceptFrame]
@[simp] theorem State.acceptFrame_env (s : State) (sq : Byte) : (s.acceptFrame sq).env = s.env := by simp [State.acceptFrame]

theorem State.acceptFrame_ctxs_cons (s : State) (sq : Byte) (ctx : Context) (rest : List Context) (h : s.ctxs = ctx :: rest) :
    (s.acceptFrame sq).ctxs = { ctx with cur := 2 } :: rest := by
  rw [State.acceptFrame, State.setPhase_ctxs, State.setCur_ctxs_cons (h := by simpa using h)]
theorem State.acceptFrame_sessions_cons (s : State) (sq : Byte) (top : Session) (rest : List Session)
    (h : s.sessions = top :: rest) : (s.acceptFrame sq).sessions = { top with phase := .decode .records } :: rest :=
  State.setPhase_sessions_cons _ _ _ _ (by simpa using h)

/-! ### transmitted -/

@[simp] theorem State.transmitted_cfg (s : State) (f : List Byte) : (s.transmitted f).cfg = s.cfg := by simp only [State.transmitted]; split <;> simp
@[simp] theorem State.transmitted_lastRx (s : State) (f : List Byte) : (s.transmitted f).lastRx = s.lastRx := by simp only [State.transmitted]; split <;> simp
@[simp] theorem State.transmitted_lastTx (s : State) (f : List Byte) : (s.transmitted f).lastTx = s.lastTx := by simp only [State.transmitted]; split <;> simp
@[simp] theorem State.transmitted_errCur (s : State) (f : List Byte) : (s.transmitted f).errCur = if s.env.drawTransmit.1 = .fail then s.errCur ||| errorMask s.cfg .cannotDeliver else s.errCur := by simp only [State.transmitted]; split <;> simp
@[simp] theorem State.transmitted_errPrev (s : State) (f : List Byte) : (s.transmitted f).errPrev = s.errPrev := by simp only [State.transmitted]; split <;> simp
@[simp] theorem State.transmitted_rstCnt (s : State) (f : List Byte) : (s.transmitted f).rstCnt = s.rstCnt := by simp only [State.transmitted]; split <;> simp
@[simp] theorem State.transmitted_depth (s : State) (f : List Byte) : (s.transmitted f).depth = s.depth := by simp only [State.transmitted]; split <;> simp
@[simp] theorem State.transmitted_ctxs (s : State) (f : List Byte) : (s.transmitted f).ctxs = s.ctxs := by simp only [State.transmitted]; split <;> simp
@[simp] theorem State.transmitted_tx (s : State) (f : List Byte) : (s.transmitted f).tx = s.tx := by simp only [State.transmitted]; split <;> simp
@[simp] theorem State.transmitted_txLen (s : State) (f : List Byte) : (s.transmitted f).txLen = s.txLen := by simp only [State.transmitted]; split <;> simp
@[simp] theorem State.transmitted_env (s : State) (f : List Byte) : (s.transmitted f).env = { s.env.drawTransmit.2 with sent := s.env.drawTransmit.2.sent ++ [f] } := by simp only [State.transmitted]; split <;> simp

theorem State.transmitted_sessions_cons (s : State) (f : List Byte) (top : Session) (rest : List Session)
    (h : s.sessions = top :: rest) : (s.transmitted f).sessions = { top with phase := .poll } :: rest := by
  simp only [State.transmitted]
  exact State.setPhase_sessions_cons _ _ _ _ (by split <;> simpa using h)

/-- Taking an answer leaves every other part of the environment alone. -/
theorem Env.drawTransmit_sent (e : Env) : e.drawTransmit.2.sent = e.sent := by
  simp only [Env.drawTransmit]; split <;> rfl
theorem Env.drawReady_sent (e : Env) : e.drawReady.2.sent = e.sent := by
  simp only [Env.drawReady]; split <;> rfl
theorem Env.drawReceive_sent (e : Env) : e.drawReceive.2.sent = e.sent := by
  simp only [Env.drawReceive]; split <;> rfl

/-! ### answerHost -/

@[simp] theorem State.answerHost_cfg (s : State) (r : HostResult) : (s.answerHost r).cfg = s.cfg := rfl
@[simp] theorem State.answerHost_lastRx (s : State) (r : HostResult) : (s.answerHost r).lastRx = s.lastRx := rfl
@[simp] theorem State.answerHost_lastTx (s : State) (r : HostResult) : (s.answerHost r).lastTx = s.lastTx := rfl
@[simp] theorem State.answerHost_errCur (s : State) (r : HostResult) : (s.answerHost r).errCur = s.errCur := rfl
@[simp] theorem State.answerHost_errPrev (s : State) (r : HostResult) : (s.answerHost r).errPrev = s.errPrev := rfl
@[simp] theorem State.answerHost_rstCnt (s : State) (r : HostResult) : (s.answerHost r).rstCnt = s.rstCnt := rfl
@[simp] theorem State.answerHost_depth (s : State) (r : HostResult) : (s.answerHost r).depth = s.depth := rfl
@[simp] theorem State.answerHost_ctxs (s : State) (r : HostResult) : (s.answerHost r).ctxs = s.ctxs := rfl
@[simp] theorem State.answerHost_sessions (s : State) (r : HostResult) : (s.answerHost r).sessions = s.sessions := rfl
@[simp] theorem State.answerHost_tx (s : State) (r : HostResult) : (s.answerHost r).tx = s.tx := rfl
@[simp] theorem State.answerHost_txLen (s : State) (r : HostResult) : (s.answerHost r).txLen = s.txLen := rfl
@[simp] theorem State.answerHost_env (s : State) (r : HostResult) : (s.answerHost r).env = { s.env with results := s.env.results ++ [r] } := rfl

/-! ### cycleEnd -/

@[simp] theorem State.cycleEnd_cfg (s : State)  : (s.cycleEnd).cfg = s.cfg := rfl
@[simp] theorem State.cycleEnd_lastRx (s : State)  : (s.cycleEnd).lastRx = s.lastRx := rfl
@[simp] theorem State.cycleEnd_lastTx (s : State)  : (s.cycleEnd).lastTx = s.lastTx := rfl
@[simp] theorem State.cycleEnd_errCur (s : State)  : (s.cycleEnd).errCur = 0 := rfl
@[simp] theorem State.cycleEnd_errPrev (s : State)  : (s.cycleEnd).errPrev = s.errCur := rfl
@[simp] theorem State.cycleEnd_rstCnt (s : State)  : (s.cycleEnd).rstCnt = s.rstCnt := rfl
@[simp] theorem State.cycleEnd_depth (s : State)  : (s.cycleEnd).depth = s.depth := rfl
@[simp] theorem State.cycleEnd_ctxs (s : State)  : (s.cycleEnd).ctxs = s.ctxs := rfl
@[simp] theorem State.cycleEnd_sessions (s : State)  : (s.cycleEnd).sessions = s.sessions := rfl
@[simp] theorem State.cycleEnd_tx (s : State)  : (s.cycleEnd).tx = s.tx := rfl
@[simp] theorem State.cycleEnd_txLen (s : State)  : (s.cycleEnd).txLen = s.txLen := rfl
@[simp] theorem State.cycleEnd_env (s : State)  : (s.cycleEnd).env = s.env := rfl

/-! ### countdownTick -/

@[simp] theorem State.countdownTick_cfg (s : State)  : (s.countdownTick).cfg = s.cfg := by simp only [State.countdownTick]; split <;> rfl
@[simp] theorem State.countdownTick_lastRx (s : State)  : (s.countdownTick).lastRx = s.lastRx := by simp only [State.countdownTick]; split <;> rfl
@[simp] theorem State.countdownTick_lastTx (s : State)  : (s.countdownTick).lastTx = s.lastTx := by simp only [State.countdownTick]; split <;> rfl
@[simp] theorem State.countdownTick_errCur (s : State)  : (s.countdownTick).errCur = s.errCur := by simp only [State.countdownTick]; split <;> rfl
@[simp] theorem State.countdownTick_errPrev (s : State)  : (s.countdownTick).errPrev = s.errPrev := by simp only [State.countdownTick]; split <;> rfl
@[simp] theorem State.countdownTick_rstCnt (s : State)  : (s.countdownTick).rstCnt = if s.rstCnt = 0 then 0 else s.rstCnt - 1 := by
  simp only [State.countdownTick]; split <;> simp_all
@[simp] theorem State.countdownTick_depth (s : State)  : (s.countdownTick).depth = s.depth := by simp only [State.countdownTick]; split <;> rfl
@[simp] theorem State.countdownTick_ctxs (s : State)  : (s.countdownTick).ctxs = s.ctxs := by simp only [State.countdownTick]; split <;> rfl
@[simp] theorem State.countdownTick_sessions (s : State)  : (s.countdownTick).sessions = s.sessions := by simp only [State.countdownTick]; split <;> rfl
@[simp] theorem State.countdownTick_tx (s : State)  : (s.countdownTick).tx = s.tx := by simp only [State.countdownTick]; split <;> rfl
@[simp] theorem State.countdownTick_txLen (s : State)  : (s.countdownTick).txLen = s.txLen := by simp only [State.countdownTick]; split <;> rfl
@[simp] theorem State.countdownTick_env (s : State)  : (s.countdownTick).env = { s.env with results := s.env.results ++ [.reboot (decide (s.rstCnt = 1))] } := by
  have h : ∀ v : Byte, v ≠ 0 → (v - 1 = 0 ↔ v = 1) := by decide
  simp only [State.countdownTick]; split <;> simp_all

/-! ### errSet -/

@[simp] theorem State.errSet_cfg (s : State) (mask : Half) : (s.errSet mask).cfg = s.cfg := rfl
@[simp] theorem State.errSet_lastRx (s : State) (mask : Half) : (s.errSet mask).lastRx = s.lastRx := rfl
@[simp] theorem State.errSet_lastTx (s : State) (mask : Half) : (s.errSet mask).lastTx = s.lastTx := rfl
@[simp] theorem State.errSet_errCur (s : State) (mask : Half) : (s.errSet mask).errCur = s.errCur ||| mask := rfl
@[simp] theorem State.errSet_errPrev (s : State) (mask : Half) : (s.errSet mask).errPrev = s.errPrev := rfl
@[simp] theorem State.errSet_rstCnt (s : State) (mask : Half) : (s.errSet mask).rstCnt = s.rstCnt := rfl
@[simp] theorem State.errSet_depth (s : State) (mask : Half) : (s.errSet mask).depth = s.depth := rfl
@[simp] theorem State.errSet_ctxs (s : State) (mask : Half) : (s.errSet mask).ctxs = s.ctxs := rfl
@[simp] theorem State.errSet_sessions (s : State) (mask : Half) : (s.errSet mask).sessions = s.sessions := rfl
@[simp] theorem State.errSet_tx (s : State) (mask : Half) : (s.errSet mask).tx = s.tx := rfl
@[simp] theorem State.errSet_txLen (s : State) (mask : Half) : (s.errSet mask).txLen = s.txLen := rfl
@[simp] theorem State.errSet_env (s : State) (mask : Half) : (s.errSet mask).env = s.env := rfl

end Sys2Proof.Machine
end

