-- ==== Sys2Proof/Laws/Exec.lean ====
section
/-! SUPPORT. What each meaning can do, once: the transmit records either build a frame or abort; and what a record the decoder
gives says about the bytes it was read from. -/
namespace Sys2Proof.Machine

/-! ### Building a frame -/

theorem State.txHeader_length (s : State) : s.txHeader.length = 2 := rfl

/-- R141, R153: a built frame reads back as its header and record, byte for byte, and no byte beyond it changes. -/
theorem State.buildFrame_read (s : State) (record : List Byte) (len a : Nat) :
    (s.buildFrame record len).tx.read a = if a < 2 + record.length then (s.txHeader ++ record)[a]? else s.tx.read a := by
  rw [State.buildFrame_tx, Memory.read_writeBytes]
  simp [State.txHeader_length]

theorem State.buildFrame_bytes (s : State) (record : List Byte) (len : Nat) (h : len = 2 + record.length) :
    (s.buildFrame record len).tx.readBytes 0 len = some (s.txHeader ++ record) := by
  have hl : len = (s.txHeader ++ record).length := by simp [State.txHeader_length, h]
  rw [State.buildFrame_tx, hl, Memory.readBytes_writeBytes]

/-- R149: a STATUS always fits, so its meaning always builds its frame. -/
theorem execStatusTx_builds (p : StatusRecord) (s : State) :
    execStatusTx p s = .next (s.buildFrame (encode s.cfg s.anyError (.statusTx p))
      (statusLength s.cfg (mergeErrorBit s.anyError p.sw))) := by
  have h := statusLength_bounds s.cfg (mergeErrorBit s.anyError p.sw)
  simp only [execStatusTx]
  rw [if_neg (by unfold maxFrame; omega)]

/-- R149: the length of a STATUS frame is that of its header and record. -/
theorem statusLength_encode (c : Config) (errs : Half) (p : StatusRecord) :
    statusLength c (mergeErrorBit errs p.sw) = 2 + (encode c errs (.statusTx p)).length := by
  have h := length_statusWire c errs p
  simp only [encode, List.length_cons]
  omega

/-- R150: a PONG that fits builds its frame. -/
theorem execPongTx_builds (data : List Byte) (s : State) (h : 3 + data.length ≤ maxFrame) :
    execPongTx data s = .next (s.buildFrame (opcPong :: data) (3 + data.length)) := by
  simp only [execPongTx]
  rw [if_neg (show ¬ pongLength data > maxFrame by unfold pongLength; omega)]
  rfl

/-- R152: a PONG that does not fit aborts. -/
theorem execPongTx_aborts (data : List Byte) (s : State) (h : maxFrame < 3 + data.length) :
    execPongTx data s = .next (s.abortEncode .encSize) := by
  simp only [execPongTx]
  rw [if_pos (show pongLength data > maxFrame by unfold pongLength; omega)]

/-- R153: the record of a request either builds a frame that fits, its length that of its bytes, or aborts with an
internal-invariant error. -/
theorem exec_txInstr (c : Config) (cmd : Byte) (p : StatusRecord) (data : List Byte) (s : State) :
    (∃ record len, len = 2 + record.length ∧ 3 ≤ len ∧ len ≤ maxFrame ∧
      exec (txInstr c cmd p data) s = .next (s.buildFrame record len)) ∨
    (∃ e, exec (txInstr c cmd p data) s = .next (s.abortEncode e)) := by
  simp only [txInstr]
  split
  · have hb := statusLength_bounds s.cfg (mergeErrorBit s.anyError p.sw)
    exact .inl ⟨_, _, statusLength_encode s.cfg s.anyError p, by omega, by unfold maxFrame; omega, execStatusTx_builds p s⟩
  · split
    · by_cases h : 3 + data.length ≤ maxFrame
      · exact .inl ⟨opcPong :: data, 3 + data.length, by simp; omega, by omega, h, execPongTx_builds data s h⟩
      · exact .inr ⟨_, execPongTx_aborts data s (by omega)⟩
    · exact .inr ⟨_, rfl⟩

/-- Every meaning answers a next state, in every state. -/
theorem exec_answers (i : Instr) (s : State) : ∃ t, exec i s = .next t := by
  cases i with
  | nop => exact ⟨_, rfl⟩
  | statusRx => exact ⟨_, rfl⟩
  | ping echo => cases echo <;> exact ⟨_, rfl⟩
  | pongRx echo => cases echo <;> exact ⟨_, rfl⟩
  | reset count => cases count <;> exact ⟨_, rfl⟩
  | unknownRx opcode => exact ⟨_, rfl⟩
  | statusTx p => exact ⟨_, execStatusTx_builds p s⟩
  | pongTx data => simp only [exec, execPongTx]; split <;> exact ⟨_, rfl⟩
  | unsupportedTx cmd => exact ⟨_, rfl⟩

/-! ### The address gate -/

/-- R103: a frame is for this node when its id field is this node's or the broadcast id. -/
theorem addressedHere_iff (c : Config) (b0 : Byte) :
    addressedHere c b0 = true ↔ b0.extractLsb' 0 5 = c.deviceId ∨ b0.extractLsb' 0 5 = (31 : BitVec 5) := by
  rw [addressedHere, Bool.or_eq_true, decide_eq_true_iff, decide_eq_true_iff]; rfl

/-! ### What the decoder gives -/

/-- R62, R120, R121: the forms a decoded record can take, each with the bytes it was read from. -/
theorem decode_cases {c : Config} {bytes rest : List Byte} {i : Instr} (h : decode c bytes = .record i rest) :
    (i = .nop ∧ bytes = c.opcNop :: rest) ∨ (i = .statusRx ∧ bytes = c.opcStatus :: rest) ∨
    (∃ op, i = .unknownRx op ∧ op ∉ c.opcodes ∧ bytes = op :: rest) ∨
    ((i = .ping none ∧ bytes = [opcPing] ∨ i = .pongRx none ∧ bytes = [opcPong] ∨ i = .reset none ∧ bytes = [c.opcReset]) ∧
      rest = []) ∨
    (∃ a, i = .ping (some a) ∧ bytes = opcPing :: a :: rest ∨ i = .pongRx (some a) ∧ bytes = opcPong :: a :: rest ∨
      i = .reset (some a) ∧ bytes = c.opcReset :: a :: rest) := by
  cases bytes with
  | nil => simp [decode] at h
  | cons op tl =>
    simp only [decode] at h
    by_cases h1 : op = c.opcNop
    · rw [if_pos h1] at h; cases h; exact .inl ⟨rfl, by rw [h1]⟩
    by_cases h2 : op = opcPing
    · rw [if_neg h1, if_pos h2] at h
      cases tl <;> simp only [takeArg, Decoded.record.injEq] at h <;> obtain ⟨rfl, rfl⟩ := h <;> simp [h2]
    by_cases h3 : op = opcPong
    · rw [if_neg h1, if_neg h2, if_pos h3] at h
      cases tl <;> simp only [takeArg, Decoded.record.injEq] at h <;> obtain ⟨rfl, rfl⟩ := h <;> simp [h3]
    by_cases h4 : op = c.opcReset
    · rw [if_neg h1, if_neg h2, if_neg h3, if_pos h4] at h
      cases tl <;> simp only [takeArg, Decoded.record.injEq] at h <;> obtain ⟨rfl, rfl⟩ := h <;> simp [h4]
    by_cases h5 : op = c.opcStatus
    · rw [if_neg h1, if_neg h2, if_neg h3, if_neg h4, if_pos h5] at h; cases h; exact .inr (.inl ⟨rfl, by rw [h5]⟩)
    · rw [if_neg h1, if_neg h2, if_neg h3, if_neg h4, if_neg h5] at h
      cases h
      exact .inr (.inr (.inl ⟨op, rfl, by simp [Config.opcodes, h1, h2, h3, h4, h5], rfl⟩))

/-- The bytes of the stream, read one by one from the cursor. -/
theorem Context.stream_byteAt {ctx : Context} {bytes : List Byte} (h : ctx.stream = some bytes) (k : Nat) (hk : k < bytes.length) :
    ctx.byteAt (ctx.cur + k) = some bytes[k] := by
  obtain ⟨hl, hr⟩ := Memory.readBytes_eq_some.1 h
  rw [Context.byteAt, if_pos (by omega), hr k (by omega), List.getElem?_eq_getElem hk]

/-- The decoder rejects the empty stream only. -/
theorem decode_isRecord {c : Config} {bytes : List Byte} (h : bytes ≠ []) : ∃ i rest, decode c bytes = .record i rest := by
  cases bytes with
  | nil => exact absurd rfl h
  | cons op tl =>
    simp only [decode]
    repeat' split
    all_goals first | exact ⟨_, _, rfl⟩ | (cases tl <;> exact ⟨_, _, rfl⟩)

end Sys2Proof.Machine
end

