-- ==== Sys2Proof/Laws/PerInstr.lean ====
section
/-! SUPPORT. Statements about every instruction as syntax, one lemma for each constructor. -/
namespace Sys2Proof.Laws.EncodedLength

open Sys2Proof Sys2Proof.Machine

/-- R62, R67, R149, R150: a well-formed instruction's encoding has the length its format gives. -/
def Statement (i : Instr) : Prop :=
  ∀ (c : Config) (errs : Half), i.wellFormed c = true → (encode c errs i).length = recordLength c errs i

theorem nop : Statement .nop := fun _ _ _ => rfl

theorem statusRx : Statement .statusRx := fun _ _ _ => rfl

theorem ping (echo : Option Byte) : Statement (.ping echo) := fun _ _ _ => by cases echo <;> rfl

theorem pongRx (echo : Option Byte) : Statement (.pongRx echo) := fun _ _ _ => by cases echo <;> rfl

theorem reset (count : Option Byte) : Statement (.reset count) := fun _ _ _ => by cases count <;> rfl

theorem unknownRx (opcode : Byte) : Statement (.unknownRx opcode) := fun _ _ _ => rfl

theorem statusTx (p : StatusRecord) : Statement (.statusTx p) := fun c errs _ => by
  have h := statusLength_encode c errs p
  simp only [recordLength, h, Nat.add_sub_cancel_left]

theorem pongTx (data : List Byte) : Statement (.pongTx data) := fun _ _ _ => by
  simp [encode, recordLength, Nat.add_comm]

theorem unsupportedTx (cmd : Byte) : Statement (.unsupportedTx cmd) := fun _ _ _ => rfl

end Sys2Proof.Laws.EncodedLength
end

