-- ==== Sys2Proof/Laws/Safety.lean ====
section
/-! SUPPORT. The small lemmas of the invariant's parts: which states are counted, decoding or accepted, what that says of the
outer sessions, and that a received byte string makes a sound frame. -/
namespace Sys2Proof.Safety

open Sys2Proof.Machine

@[simp] theorem counted_enter : counted .enter = false := rfl
@[simp] theorem counted_reject : counted .reject = true := rfl
@[simp] theorem counted_encode : counted .encode = true := rfl
@[simp] theorem counted_transmit : counted .transmit = true := rfl
@[simp] theorem counted_poll : counted .poll = true := rfl
@[simp] theorem counted_receive : counted .receive = true := rfl
@[simp] theorem counted_decode (d : DecodeStage) : counted (.decode d) = true := rfl
@[simp] theorem counted_exit : counted .exit = true := rfl
@[simp] theorem counted_done : counted .done = false := rfl

@[simp] theorem decoding_enter : decoding .enter = false := rfl
@[simp] theorem decoding_reject : decoding .reject = false := rfl
@[simp] theorem decoding_encode : decoding .encode = false := rfl
@[simp] theorem decoding_transmit : decoding .transmit = false := rfl
@[simp] theorem decoding_poll : decoding .poll = false := rfl
@[simp] theorem decoding_receive : decoding .receive = false := rfl
@[simp] theorem decoding_decode (d : DecodeStage) : decoding (.decode d) = true := rfl
@[simp] theorem decoding_exit : decoding .exit = false := rfl
@[simp] theorem decoding_done : decoding .done = false := rfl

@[simp] theorem accepted_enter : accepted .enter = false := rfl
@[simp] theorem accepted_reject : accepted .reject = false := rfl
@[simp] theorem accepted_encode : accepted .encode = true := rfl
@[simp] theorem accepted_transmit : accepted .transmit = true := rfl
@[simp] theorem accepted_poll : accepted .poll = true := rfl
@[simp] theorem accepted_receive : accepted .receive = true := rfl
@[simp] theorem accepted_decode (d : DecodeStage) : accepted (.decode d) = true := rfl
@[simp] theorem accepted_exit : accepted .exit = true := rfl
@[simp] theorem accepted_done : accepted .done = false := rfl

theorem run_zero (s : State) : run 0 s = .next s := rfl

theorem run_succ_of_next {k : Nat} {s t : State} (h : step s = .next t) : run (k + 1) s = run k t := by
  simp only [run, h]

/-- A run that answers a next state took a step to a next state first. -/
theorem run_succ_cases {k : Nat} {s t : State} (h : run (k + 1) s = .next t) : ∃ u, step s = .next u ∧ run k u = .next t := by
  cases hs : step s with
  | next u => exact ⟨u, rfl, by rwa [run_succ_of_next hs] at h⟩
  | fault r => simp only [run, hs] at h; cases h
  | refused r => simp only [run, hs] at h; cases h

/-- R30: a received byte string makes a sound frame. -/
theorem FrameOk.ofBytes (f : List Byte) : FrameOk (Memory.ofBytes f) f.length where
  wf := Memory.wf_ofBytes f
  within := fun _ h => Memory.mem_ofBytes h
  full := fun a h => by rw [Memory.read_ofBytes]; simp [h]

/-- Every outer session is counted in `DEPTH`. -/
theorem NestingOk.counted_outer {top : Session} {outer : List Session} (h : NestingOk (top :: outer)) :
    outer.countP (fun t => counted t.phase) = outer.length :=
  List.countP_eq_length.2 fun t ht => by rw [h.1 t ht]; rfl

/-- Every outer session has a context. -/
theorem NestingOk.decoding_outer {top : Session} {outer : List Session} (h : NestingOk (top :: outer)) :
    outer.countP (fun t => decoding t.phase) = outer.length :=
  List.countP_eq_length.2 fun t ht => by rw [h.1 t ht]; rfl

/-- R39 (b): `DEPTH`, from the number of outer sessions and the state of the innermost one. -/
theorem Inv.depth_cons {s : State} (h : Inv s) {top : Session} {outer : List Session} (hs : s.sessions = top :: outer) :
    s.depth = outer.length + (counted top.phase).toNat := by
  have hn := h.nesting
  have hd := h.depth
  rw [hs] at hn hd
  rw [hd, List.countP_cons, hn.counted_outer]
  cases counted top.phase <;> simp

/-- R29: how many contexts there are. -/
theorem Inv.contexts_cons {s : State} (h : Inv s) {top : Session} {outer : List Session} (hs : s.sessions = top :: outer) :
    s.ctxs.length = outer.length + (decoding top.phase).toNat := by
  have hn := h.nesting
  have hd := h.contexts
  rw [hs] at hn hd
  rw [hd, List.countP_cons, hn.decoding_outer]
  cases decoding top.phase <;> simp

/-- R39 (a): with no session open, the block is idle. -/
theorem Inv.idle {s : State} (h : Inv s) (hs : s.sessions = []) : idle s := by
  have hd := h.depth
  have hc := h.contexts
  rw [hs] at hd hc
  exact ⟨hs, List.eq_nil_of_length_eq_zero (by simpa using hc), by simpa using hd⟩

/-! ### The invariant, taken apart and put together at an open session -/

theorem Inv.nesting_cons {s : State} (h : Inv s) {top : Session} {outer : List Session} (hs : s.sessions = top :: outer) :
    NestingOk (top :: outer) := by
  have hn := h.nesting
  rwa [hs] at hn

/-- R107, R123: the outer decodes wait at their PING records. -/
theorem Inv.outer_cons {s : State} (h : Inv s) {top : Session} {outer : List Session} (hs : s.sessions = top :: outer) :
    ∀ ctx ∈ (if decoding top.phase then s.ctxs.tail else s.ctxs), SuspendedOk ctx := by
  have ho := h.outer
  rwa [outerContexts, hs] at ho

/-- A state of a session that is not decoding says nothing of a cursor. -/
theorem CursorOk.of_not_decoding {p : Phase} {ctx : Context} (h : decoding p = false) : CursorOk p ctx :=
  ⟨fun hp => by simp [hp] at h, fun hp => by simp [hp] at h⟩

/-- The invariant at an open session, from its parts. -/
theorem Inv.of_cons {s : State} {top : Session} {outer : List Session} (hs : s.sessions = top :: outer)
    (nesting : NestingOk (top :: outer)) (depth : s.depth = outer.length + (counted top.phase).toNat)
    (contexts : s.ctxs.length = outer.length + (decoding top.phase).toNat) (context : ∀ ctx ∈ s.ctxs, ContextOk ctx)
    (suspended : ∀ ctx ∈ (if decoding top.phase then s.ctxs.tail else s.ctxs), SuspendedOk ctx)
    (cursor : ∀ ctx rest, s.ctxs = ctx :: rest → CursorOk top.phase ctx)
    (wf : s.tx.wf) (within : ∀ c ∈ s.tx, c.1 < maxFrame) (len : s.txLen ≤ maxFrame)
    (built : top.phase = .transmit → minFrame ≤ s.txLen ∧ ∀ a, a < s.txLen → (s.tx.read a).isSome) : Inv s where
  depth := by rw [hs, List.countP_cons, nesting.counted_outer, depth]; cases counted top.phase <;> simp
  nesting := by rw [hs]; exact nesting
  contexts := by rw [hs, List.countP_cons, nesting.decoding_outer, contexts]; cases decoding top.phase <;> simp
  context := context
  outer := by rw [outerContexts, hs]; exact suspended
  cursor := fun _ _ _ _ h hx => by rw [hs] at h; cases h; exact cursor _ _ hx
  tx := ⟨wf, within, len, fun _ _ h hp => by rw [hs] at h; cases h; exact built hp⟩

end Sys2Proof.Safety
end

