-- ==== Sys2Proof/Laws/Step.lean ====
section
/-! SUPPORT. What a step can do, said once (`step_moves`), and the step of each state of the machine. Invariants are derived from
these, not from the definition of `step`. -/
namespace Sys2Proof.Machine

/-! ### The step, by the state of the innermost session -/

/-- The outcome of an action. -/
def Action.outcome (s : State) : Action → Result
  | .run i => exec i s
  | .answer o => o

theorem step_eq_outcome (s : State) : step s = (nextAction s).outcome s := by
  unfold step
  cases nextAction s <;> rfl

theorem step_of_illegal {s : State} (h : ¬ s.cfg.legal) : step s = .refused .illegalConfig := by
  rw [step_eq_outcome, nextAction, if_neg h]; rfl

theorem step_of_resetLine {s : State} (hc : s.cfg.legal) (h : s.env.resetLine = true) : step s = .next s.blockReset := by
  rw [step_eq_outcome, nextAction, if_pos hc, if_pos h]; rfl

theorem step_of_idle {s : State} (hc : s.cfg.legal) (h : s.env.resetLine = false) (hs : s.sessions = []) :
    step s = idleStep s := by
  rw [step_eq_outcome, nextAction, if_pos hc, if_neg (by simp [h])]; simp only [hs]; rfl

theorem step_of_session {s : State} (hc : s.cfg.legal) (h : s.env.resetLine = false) {top : Session} {outer : List Session}
    (hs : s.sessions = top :: outer) : step s = (sessionAction s top).outcome s := by
  rw [step_eq_outcome, nextAction, if_pos hc, if_neg (by simp [h])]; simp only [hs]

/-- R108: in the record loop, before the end of the frame, the step runs the decoded record. -/
theorem step_of_record {s : State} (hc : s.cfg.legal) (h : s.env.resetLine = false) {top : Session} {outer : List Session}
    (hs : s.sessions = top :: outer) (hp : top.phase = .decode .records) {ctx : Context} {rest : List Context}
    (hx : s.ctxs = ctx :: rest) (hcur : ctx.cur < ctx.rxLen) {bytes tail : List Byte} (hb : ctx.stream = some bytes)
    {i : Instr} (hd : decode s.cfg bytes = .record i tail) : step s = exec i s := by
  rw [step_of_session hc h hs, sessionAction, hp]
  simp only [recordAction, hx, if_pos hcur, hb, hd]
  rfl

/-! ### What a step can do -/

/-- All that a step to a next state can be, with what each says of the state it starts from. -/
inductive Moves (s : State) : State → Prop
  /-- R242. -/
  | reset (hr : s.env.resetLine = true) : Moves s s.blockReset
  /-- R243. -/
  | idle (hr : s.env.resetLine = false) (hs : s.sessions = []) (ho : s.env.hostOps = []) : Moves s s
  /-- R202. -/
  | host (hr : s.env.resetLine = false) (hs : s.sessions = []) (op : HostOp) (rest : List HostOp)
      (ho : s.env.hostOps = op :: rest) : Moves s ((s.setEnv { s.env with hostOps := rest }).hostOp op)
  /-- R171. -/
  | enter (hr : s.env.resetLine = false) (top : Session) (outer : List Session) (hs : s.sessions = top :: outer)
      (hp : top.phase = .enter) :
      Moves s ((s.setDepth (s.depth + 1)).setPhase (if s.depth + 1 > maxDepth then .reject else .encode))
  /-- R172. -/
  | reject (hr : s.env.resetLine = false) (top : Session) (outer : List Session) (hs : s.sessions = top :: outer)
      (hp : top.phase = .reject) : Moves s (((s.raise .depth).setDepth (s.depth - 1)).setPhase .done)
  /-- R153, R173. -/
  | built (hr : s.env.resetLine = false) (top : Session) (outer : List Session) (hs : s.sessions = top :: outer)
      (hp : top.phase = .encode) (record : List Byte) (len : Nat) (hl : len = 2 + record.length) (h3 : 3 ≤ len)
      (h32 : len ≤ maxFrame) : Moves s (s.buildFrame record len)
  /-- R151, R152. -/
  | aborted (hr : s.env.resetLine = false) (top : Session) (outer : List Session) (hs : s.sessions = top :: outer)
      (hp : top.phase = .encode) (e : ErrorKind) : Moves s (s.abortEncode e)
  /-- R174. -/
  | transmit (hr : s.env.resetLine = false) (top : Session) (outer : List Session) (hs : s.sessions = top :: outer)
      (hp : top.phase = .transmit) (hl : s.txLen ≤ maxFrame) : Moves s (s.transmitted s.txFrame)
  /-- R175. -/
  | poll (hr : s.env.resetLine = false) (top : Session) (outer : List Session) (hs : s.sessions = top :: outer)
      (hp : top.phase = .poll) :
      Moves s ((s.setEnv s.env.drawReady.2).setPhase (if s.env.drawReady.1 then .receive else .exit))
  /-- R175, R195. -/
  | receive (hr : s.env.resetLine = false) (top : Session) (outer : List Session) (hs : s.sessions = top :: outer)
      (hp : top.phase = .receive) (hl : s.env.drawReceive.1.length ≤ maxFrame) :
      Moves s (((s.setEnv s.env.drawReceive.2).pushFrame s.env.drawReceive.1).setPhase (.decode .gates))
  /-- R101, R103: a gate ends the decode silently. -/
  | gateSilent (hr : s.env.resetLine = false) (top : Session) (outer : List Session) (hs : s.sessions = top :: outer)
      (hp : top.phase = .decode .gates) (ctx : Context) (rest : List Context) (hx : s.ctxs = ctx :: rest) :
      Moves s s.endDecode
  /-- R104. -/
  | gateVersion (hr : s.env.resetLine = false) (top : Session) (outer : List Session) (hs : s.sessions = top :: outer)
      (hp : top.phase = .decode .gates) (ctx : Context) (rest : List Context) (hx : s.ctxs = ctx :: rest) :
      Moves s (s.raise .version).endDecode
  /-- R105 to R107: a frame that passed the gates. -/
  | accept (hr : s.env.resetLine = false) (top : Session) (outer : List Session) (hs : s.sessions = top :: outer)
      (hp : top.phase = .decode .gates) (ctx : Context) (rest : List Context) (hx : s.ctxs = ctx :: rest)
      (hl : minFrame ≤ ctx.rxLen) (b0 : Byte) (h0 : ctx.byteAt 0 = some b0) (ha : addressedHere s.cfg b0 = true)
      (hv : headerVersion b0 = s.cfg.protoVersion) (sq : Byte) (hq : ctx.byteAt 1 = some sq) : Moves s (s.acceptFrame sq)
  /-- R108, R110: the end of the frame. -/
  | frameEnd (hr : s.env.resetLine = false) (top : Session) (outer : List Session) (hs : s.sessions = top :: outer)
      (hp : top.phase = .decode .records) (ctx : Context) (rest : List Context) (hx : s.ctxs = ctx :: rest)
      (hc : ctx.rxLen ≤ ctx.cur) : Moves s s.endDecode
  /-- R122. -/
  | nop (hr : s.env.resetLine = false) (top : Session) (outer : List Session) (hs : s.sessions = top :: outer)
      (hp : top.phase = .decode .records) (ctx : Context) (rest : List Context) (hx : s.ctxs = ctx :: rest)
      (hc : ctx.cur + 1 ≤ ctx.rxLen) : Moves s (s.advanceCur 1)
  /-- R125, R127. -/
  | unknown (hr : s.env.resetLine = false) (top : Session) (outer : List Session) (hs : s.sessions = top :: outer)
      (hp : top.phase = .decode .records) (ctx : Context) (rest : List Context) (hx : s.ctxs = ctx :: rest) :
      Moves s (s.raise .unknownCmd).endDecode
  /-- R121, PING and RESET. -/
  | truncated (hr : s.env.resetLine = false) (top : Session) (outer : List Session) (hs : s.sessions = top :: outer)
      (hp : top.phase = .decode .records) (ctx : Context) (rest : List Context) (hx : s.ctxs = ctx :: rest) :
      Moves s s.endDecode
  /-- R121, R124. -/
  | truncatedPong (hr : s.env.resetLine = false) (top : Session) (outer : List Session) (hs : s.sessions = top :: outer)
      (hp : top.phase = .decode .records) (ctx : Context) (rest : List Context) (hx : s.ctxs = ctx :: rest) :
      Moves s (s.raise .unexpectedCmd).endDecode
  /-- R123. -/
  | ping (hr : s.env.resetLine = false) (top : Session) (outer : List Session) (hs : s.sessions = top :: outer)
      (hp : top.phase = .decode .records) (ctx : Context) (rest : List Context) (hx : s.ctxs = ctx :: rest)
      (hc : ctx.cur + 2 ≤ ctx.rxLen) (ho : ctx.byteAt ctx.cur = some opcPing) (echo : Byte)
      (ha : ctx.byteAt (ctx.cur + 1) = some echo) : Moves s (s.openSession (Request.pong [echo]))
  /-- R124. -/
  | pong (hr : s.env.resetLine = false) (top : Session) (outer : List Session) (hs : s.sessions = top :: outer)
      (hp : top.phase = .decode .records) (ctx : Context) (rest : List Context) (hx : s.ctxs = ctx :: rest)
      (hc : ctx.cur + 2 ≤ ctx.rxLen) (ho : ctx.byteAt ctx.cur = some opcPong) : Moves s ((s.raise .unexpectedCmd).advanceCur 2)
  /-- R126. -/
  | countdown (hr : s.env.resetLine = false) (top : Session) (outer : List Session) (hs : s.sessions = top :: outer)
      (hp : top.phase = .decode .records) (ctx : Context) (rest : List Context) (hx : s.ctxs = ctx :: rest)
      (hc : ctx.cur + 2 ≤ ctx.rxLen) (ho : ctx.byteAt ctx.cur = some s.cfg.opcReset) (count : Byte)
      (ha : ctx.byteAt (ctx.cur + 1) = some count) : Moves s ((s.setRstCnt count).advanceCur 2)
  /-- R177. -/
  | exit (hr : s.env.resetLine = false) (top : Session) (outer : List Session) (hs : s.sessions = top :: outer)
      (hp : top.phase = .exit) : Moves s ((s.setDepth (s.depth - 1)).setPhase .done)
  /-- R170, to the host. -/
  | doneHost (hr : s.env.resetLine = false) (top : Session) (hs : s.sessions = [top]) (hp : top.phase = .done) :
      Moves s (s.setSessions [])
  /-- R170, R123, to the PING of the outer decode. -/
  | donePing (hr : s.env.resetLine = false) (top next : Session) (outer : List Session)
      (hs : s.sessions = top :: next :: outer) (hp : top.phase = .done) :
      Moves s ((s.setSessions (next :: outer)).advanceCur 2)

/-- The gates, by what they can answer. -/
theorem decodeGates_moves {s t : State} (hr : s.env.resetLine = false) {top : Session} {outer : List Session}
    (hs : s.sessions = top :: outer) (hp : top.phase = .decode .gates) (h : decodeGates s = .next t) : Moves s t := by
  simp only [decodeGates] at h
  split at h
  · cases h
  · rename_i ctx rest hx
    split at h
    · cases h; exact .gateSilent hr top outer hs hp ctx rest hx
    · rename_i hl
      split at h
      · cases h
      · rename_i b0 h0
        split at h
        · cases h; exact .gateSilent hr top outer hs hp ctx rest hx
        · rename_i ha
          split at h
          · cases h; exact .gateVersion hr top outer hs hp ctx rest hx
          · rename_i hv
            split at h
            · cases h
            · rename_i sq hq
              cases h
              exact .accept hr top outer hs hp ctx rest hx (by omega) b0 h0 (by simpa using ha) (by simpa using hv) sq hq

/-- The record loop, by what it can answer. -/
theorem recordAction_moves {s t : State} (hr : s.env.resetLine = false) {top : Session} {outer : List Session}
    (hs : s.sessions = top :: outer) (hp : top.phase = .decode .records) (h : (recordAction s).outcome s = .next t) :
    Moves s t := by
  simp only [recordAction] at h
  split at h
  · cases h
  · rename_i ctx rest hx
    split at h
    · rename_i hcur
      split at h
      · cases h
      · rename_i bytes hb
        have hlen := Memory.readBytes_length hb
        split at h
        · rename_i i tail hd
          have hat := Context.stream_byteAt hb
          rcases decode_cases hd with ⟨rfl, rfl⟩ | ⟨rfl, rfl⟩ | ⟨op, rfl, -, rfl⟩ | ⟨hi, -⟩ | ⟨a, hi⟩
          · simp only [List.length_cons] at hlen
            cases h; exact .nop hr top outer hs hp ctx rest hx (by omega)
          · cases h; exact .unknown hr top outer hs hp ctx rest hx
          · cases h; exact .unknown hr top outer hs hp ctx rest hx
          · rcases hi with ⟨rfl, -⟩ | ⟨rfl, -⟩ | ⟨rfl, -⟩ <;> cases h
            · exact .truncated hr top outer hs hp ctx rest hx
            · exact .truncatedPong hr top outer hs hp ctx rest hx
            · exact .truncated hr top outer hs hp ctx rest hx
          · rcases hi with ⟨rfl, rfl⟩ | ⟨rfl, rfl⟩ | ⟨rfl, rfl⟩ <;> cases h <;>
              simp only [List.length_cons] at hlen <;> have h0 := hat 0 (by simp) <;> have h1 := hat 1 (by simp)
            · exact .ping hr top outer hs hp ctx rest hx (by omega) h0 a h1
            · exact .pong hr top outer hs hp ctx rest hx (by omega) h0
            · exact .countdown hr top outer hs hp ctx rest hx (by omega) h0 a h1
        · cases h
    · cases h; exact .frameEnd hr top outer hs hp ctx rest hx (by omega)

/-- What a step to a next state can be. The configuration is then legal. -/
theorem step_moves {s t : State} (h : step s = .next t) : s.cfg.legal ∧ Moves s t := by
  by_cases hc : s.cfg.legal
  swap
  · rw [step_of_illegal hc] at h; cases h
  refine ⟨hc, ?_⟩
  cases hr : s.env.resetLine with
  | true => rw [step_of_resetLine hc hr] at h; cases h; exact .reset hr
  | false =>
    cases hs : s.sessions with
    | nil =>
      rw [step_of_idle hc hr hs, idleStep] at h
      split at h <;> rename_i ho <;> cases h
      · exact .idle hr hs ho
      · exact .host hr hs _ _ ho
    | cons top outer =>
      rw [step_of_session hc hr hs] at h
      cases hp : top.phase with
      | enter => simp only [sessionAction, hp] at h; cases h; exact .enter hr top outer hs hp
      | reject => simp only [sessionAction, hp] at h; cases h; exact .reject hr top outer hs hp
      | encode =>
        simp only [sessionAction, hp, Action.outcome] at h
        rcases exec_txInstr s.cfg top.request.cmd top.request.status top.request.data s with
          ⟨record, len, hl, h3, h32, he⟩ | ⟨e, he⟩ <;> rw [he] at h <;> cases h
        · exact .built hr top outer hs hp record len hl h3 h32
        · exact .aborted hr top outer hs hp e
      | transmit =>
        simp only [sessionAction, hp, Action.outcome, sessionTransmit] at h
        split at h <;> cases h
        exact .transmit hr top outer hs hp (by omega)
      | poll => simp only [sessionAction, hp] at h; cases h; exact .poll hr top outer hs hp
      | receive =>
        simp only [sessionAction, hp, Action.outcome, sessionReceive] at h
        split at h <;> cases h
        exact .receive hr top outer hs hp (by omega)
      | decode stage =>
        cases stage with
        | gates => simp only [sessionAction, hp, Action.outcome] at h; exact decodeGates_moves hr hs hp h
        | records => simp only [sessionAction, hp] at h; exact recordAction_moves hr hs hp h
      | exit => simp only [sessionAction, hp] at h; cases h; exact .exit hr top outer hs hp
      | done =>
        simp only [sessionAction, hp, Action.outcome, sessionDone] at h
        cases outer with
        | nil => simp only [hs] at h; cases h; exact .doneHost hr top hs hp
        | cons next outer => simp only [hs] at h; cases h; exact .donePing hr top next outer hs hp

end Sys2Proof.Machine
end

