-- ==== Sys2Proof/Tests/Slice0.lean ====
section
/-! SUPPORT. The model's own tests: words written out from the spec's encodings, one step each on small states with the results
the spec's vectors give (95_test_vectors.md), the refusals of ill-formed terms, and for each obligation with hypotheses a
concrete state that meets them. -/
namespace Sys2Proof.Tests

open Sys2Proof.Machine Sys2Proof.Safety

/-! ### States the tests start from -/

/-- The next state, if there is one. -/
def after : Result → Option State
  | .next s => some s
  | .fault _ => none
  | .refused _ => none

theorem after_isSome {r : Result} (h : (after r).isSome = true) : ∃ t, r = .next t := by
  cases r with
  | next s => exact ⟨s, rfl⟩
  | fault f => cases h
  | refused f => cases h

/-- A request with a command byte and a byte string. -/
def request (cmd : Byte) (data : List Byte) : Request := { Request.empty with cmd := cmd, data := data }

/-- A session at the state `p`, its request that of an empty PONG. -/
def sessionAt (p : Phase) : Session := { phase := p, request := Request.empty }

/-- The context of a received frame. -/
def context (f : List Byte) (cur : Nat) : Context := { rx := Memory.ofBytes f, rxLen := f.length, cur := cur }

/-- The reset state with one session open, at the state `p`. -/
def openAt (p : Phase) : State := { State.reset with depth := (counted p).toNat, sessions := [sessionAt p] }

/-- The session at depth 1 that has just received the frame `f`, when `LAST_RX` is `last`. -/
def atGates (last : Byte) (f : List Byte) : State :=
  { openAt (.decode .gates) with lastRx := last, ctxs := [context f 0] }

/-- The same session in its record loop, the cursor at offset `cur`. -/
def atRecords (f : List Byte) (cur : Nat) : State := { openAt (.decode .records) with ctxs := [context f cur] }

/-- A session at depth 1 that waits at a PING, and a nested one at the state `p`. -/
def nestedAt (p : Phase) (inner : List Context) : State :=
  { State.reset with
    depth := 1 + (counted p).toNat
    sessions := [sessionAt p, sessionAt (.decode .records)]
    ctxs := inner ++ [context [0x01, 0x01, 0x02, 0x10, 0x04, 0x01] 2] }

/-- A decode at depth 2, at a PING, whose outer decode waits at a PING (program P3). -/
def atDeepPing : State := nestedAt (.decode .records) [context [0x01, 0x02, 0x02, 0x20, 0x02, 0x30] 2]

/-- A third entry, at ENTER, from the PING at depth 2. -/
def atThirdEntry : State := { atDeepPing with sessions := sessionAt .enter :: atDeepPing.sessions }

/-- The idle block with one host operation issued. -/
def issued (op : HostOp) : State := { State.reset with env := { Env.empty with hostOps := [op] } }

/-- The session at TRANSMIT, its 3-byte frame built, the transceiver's answer supplied. -/
def atTransmit (a : TransmitAnswer) : State :=
  { openAt .transmit with
    tx := Memory.ofBytes [0x01, 0x00, 0x03]
    txLen := 3
    env := { Env.empty with transmitAnswers := [a] } }

/-- The session at TRANSMIT after a reset, `TX_LEN` set and no byte of `tx` written. -/
def atUnwritten (n : Nat) : State :=
  { openAt .transmit with txLen := n, env := { Env.empty with transmitAnswers := [.ok] } }

/-- The status record of vector E-8. -/
def recordE8 : StatusRecord :=
  { sw := 0x001F, elapsed := 0, wake := 0x12345678, batt := 0xF830, hum := 0x0190, temp := 0xFF38 }

/-- The configuration of vectors D-14 and E-18. -/
def config5 : Config := { Config.default with protoVersion := 5, deviceId := 30 }

/-! ### Decoding: words written out from the encodings of 30_encoding.md -/

/-- NOP, 0x00: opcode byte 0000_0000, format OP0. -/
theorem test_decode_nop : decode Config.default [0b00000000#8, 0b11111111#8] = .record .nop [0b11111111#8] := by decide

/-- STATUS, 0x01, received: only its opcode is read. -/
theorem test_decode_statusRx : decode Config.default [0b00000001#8, 0x00] = .record .statusRx [0x00] := by decide

/-- PING, 0x02, format OP1 with the echo byte 0111_1010. -/
theorem test_decode_ping : decode Config.default [0b00000010#8, 0b01111010#8] = .record (.ping (some 0x7A)) [] := by decide

/-- PING as the last byte of the frame: truncated. -/
theorem test_decode_ping_truncated : decode Config.default [0b00000010#8] = .record (.ping none) [] := by decide

/-- PONG, 0x03, received, format OP1. -/
theorem test_decode_pongRx : decode Config.default [0b00000011#8, 0x99, 0x00] = .record (.pongRx (some 0x99)) [0x00] := by decide

/-- RESET, 0x04, format OP1 with the countdown 3. -/
theorem test_decode_reset : decode Config.default [0b00000100#8, 0b00000011#8] = .record (.reset (some 3)) [] := by decide

/-- The lowest byte that is no opcode, 0x05 (R127). -/
theorem test_decode_unknownRx_lowest : decode Config.default [0b00000101#8] = .record (.unknownRx 0x05) [] := by decide

/-- The highest, 0xFF. -/
theorem test_decode_unknownRx_highest : decode Config.default [0b11111111#8, 0x02] = .record (.unknownRx 0xFF) [0x02] := by
  decide

/-- The only stream that is no record: the empty one. -/
theorem test_decode_empty : decode Config.default [] = .reject .noOpcode := by decide

/-- R43: header 0xBE is version 101, id 1_1110. -/
theorem test_header : headerVersion 0b10111110#8 = 5 ∧ headerId 0b10111110#8 = 30 ∧ headerByte 5 30 = 0xBE := by decide

/-- STATUS.tx, vector E-7: sw=0010, hum=0190, temp=FF38. The record starts at offset 2 of the frame. -/
theorem test_encode_statusTx : encode Config.default 0 (.statusTx { recordE8 with sw := 0x0010 }) =
    [0b00000001#8, 0x10, 0x00, 0x90, 0x01, 0x38, 0xFF] := by decide

/-- STATUS.tx of vector E-5, read back by its status bits. -/
theorem test_parse_statusTx : parseOutbound Config.default [0x01, 0x04, 0x00, 0xE4, 0x0C] =
    some (.status { sw := 0x0004, mask := none, runtime := none, batt := some 0x0CE4, humTemp := none }) := by decide

/-- PONG.tx, vector E-12. -/
theorem test_parse_pongTx : parseOutbound Config.default [0b00000011#8, 0x7A] = some (.pong [0x7A]) := by decide

/-- R151: a command that is neither STATUS nor PONG selects the row that writes nothing. -/
theorem test_select_unsupportedTx : txInstr Config.default 0x02 recordE8 [] = .unsupportedTx 0x02 ∧
    encode Config.default 0 (.unsupportedTx 0x02) = [] := by decide

/-! ### The opcode table's words, and the fetch -/

/-- PING with a zero echo byte: 8 bits given, the second byte zero. -/
theorem test_table_ping : decodeTableWord 8 0x02 = some (.ping (some 0x00)) := by decide

/-- 16 bits given: the second byte is bits 15..8. -/
theorem test_table_reset : decodeTableWord 16 0x0304 = some (.reset (some 0x03)) := by decide

/-- The row of no bits has no word. -/
theorem test_table_empty : decodeTableWord 0 0 = none := by decide

/-- The placed RESET is what the next step runs, right after reset. -/
theorem test_fetch_reset : (after (step (State.reset.withFetchWord 16 0x0304))).map State.rstCnt = some 0x03 := by decide

/-- The placed unknown opcode is flagged. -/
theorem test_fetch_unknown : (after (step (State.reset.withFetchWord 8 0xEE))).map State.errCur = some 0x0002 := by decide

/-! ### WellFormed refuses what has no encoding -/

theorem test_wellFormed_unknownRx : (Instr.unknownRx 0x02).wellFormed Config.default = false ∧
    (Instr.unknownRx 0x05).wellFormed Config.default = true := by decide

theorem test_wellFormed_pongTx : (Instr.pongTx (List.replicate 30 0)).wellFormed Config.default = false ∧
    (Instr.pongTx (List.replicate 29 0)).wellFormed Config.default = true := by decide

theorem test_wellFormed_unsupportedTx : (Instr.unsupportedTx 0x01).wellFormed Config.default = false ∧
    (Instr.unsupportedTx 0x03).wellFormed Config.default = false ∧
    (Instr.unsupportedTx 0x00).wellFormed Config.default = true := by decide

/-- R28 (decision D3): the broadcast id is no device id. -/
theorem test_legal_deviceId : ¬ ({ Config.default with deviceId := 31 } : Config).legal := by decide

/-- R9: an opcode may not be that of PING. -/
theorem test_legal_opcodes : ¬ ({ Config.default with opcReset := 0x02 } : Config).legal := by decide

/-- R9: a status bit may not be the error bit. -/
theorem test_legal_statusBits : ¬ ({ Config.default with sBatt := 0 } : Config).legal := by decide

/-- R211: the error kinds have bits of their own. -/
theorem test_legal_errorBits : ¬ ({ Config.default with eDepth := 7 } : Config).legal := by decide

/-! ### One step or one meaning each, with the results of the vectors -/

/-- C-16: NOP at offset 2. -/
theorem test_nop : (after (exec .nop (atRecords [0x01, 0x05, 0x00, 0x00, 0x00] 2))).map (fun t => t.ctxs.map Context.cur) =
    some [3] := by decide

/-- C-1: PING opens a session for a PONG that carries the echo byte, and nothing else moves yet. -/
theorem test_ping : (after (exec (.ping (some 0x7A)) (atRecords [0x01, 0x05, 0x02, 0x7A] 2))).map
    (fun t => (t.sessions.map Session.phase, (t.sessions.map (fun x => x.request.data)).head?, t.ctxs.map Context.cur)) =
    some ([.enter, .decode .records], some [0x7A], [2]) := by decide

/-- C-2: the truncated PING ends the decode without an error. -/
theorem test_ping_truncated : (after (exec (.ping none) (atRecords [0x01, 0x05, 0x02] 2))).map
    (fun t => (t.sessions.map Session.phase, t.errCur, t.ctxs)) = some ([.exit], 0x0000, []) := by decide

/-- C-3: a received PONG, and its discarded byte. -/
theorem test_pongRx : (after (exec (.pongRx (some 0x99)) (atRecords [0x01, 0x05, 0x03, 0x99, 0x00] 2))).map
    (fun t => (t.errCur, t.ctxs.map Context.cur)) = some (0x0008, [4]) := by decide

/-- C-4: truncated, it is flagged all the same. -/
theorem test_pongRx_truncated : (after (exec (.pongRx none) (atRecords [0x01, 0x05, 0x03] 2))).map
    (fun t => (t.errCur, t.sessions.map Session.phase)) = some (0x0008, [.exit]) := by decide

/-- C-6: a countdown of 0 disables. -/
theorem test_reset_disables : (after (exec (.reset (some 0x00)) { atRecords [0x01, 0x05, 0x04, 0x00] 2 with rstCnt := 7 })).map
    (fun t => (t.rstCnt, t.ctxs.map Context.cur)) = some (0x00, [4]) := by decide

/-- C-7: the truncated RESET leaves the countdown. -/
theorem test_reset_truncated : (after (exec (.reset none) { atRecords [0x01, 0x05, 0x04] 2 with rstCnt := 7 })).map
    (fun t => (t.rstCnt, t.errCur)) = some (0x07, 0x0000) := by decide

/-- C-9: a received STATUS. -/
theorem test_statusRx : (after (exec .statusRx (atRecords [0x01, 0x05, 0x01, 0x00, 0x00] 2))).map
    (fun t => (t.errCur, t.sessions.map Session.phase)) = some (0x0002, [.exit]) := by decide

/-- C-12: the unknown opcode after a flagged PONG. -/
theorem test_unknownRx : (after (exec (.unknownRx 0xAB) { atRecords [0x01, 0x05, 0x03, 0x00, 0xAB] 4 with errCur := 8 })).map
    (fun t => (t.errCur, t.ctxs)) = some (0x000A, []) := by decide

/-- E-8: a STATUS with every field. -/
theorem test_statusTx : (after (exec (.statusTx recordE8)
      { openAt .encode with errCur := 0x0004, errPrev := 0x0010, lastTx := 7 })).map
    (fun t => (t.tx.readBytes 0 t.txLen, t.lastTx)) =
    some (some [0x01, 0x07, 0x01, 0x1F, 0x00, 0x14, 0x00, 0x00, 0x00, 0x00, 0x00, 0x78, 0x56, 0x34, 0x12, 0x30, 0xF8, 0x90,
      0x01, 0x38, 0xFF], 0x08) := by decide

/-- E-2: an error of the previous cycle alone is reported. -/
theorem test_statusTx_previous : (after (exec (.statusTx { recordE8 with sw := 0 }) { openAt .encode with errPrev := 0x0010 })).map
    (fun t => t.tx.readBytes 0 t.txLen) = some (some [0x01, 0x00, 0x01, 0x01, 0x00, 0x10, 0x00]) := by decide

/-- E-12. -/
theorem test_pongTx : (after (exec (.pongTx [0x7A]) (openAt .encode))).map (fun t => (t.tx.readBytes 0 t.txLen, t.lastTx)) =
    some (some [0x01, 0x00, 0x03, 0x7A], 0x01) := by decide

/-- E-15: 30 bytes do not fit. -/
theorem test_pongTx_oversize : (after (exec (.pongTx (List.replicate 30 0)) (openAt .encode))).map
    (fun t => (t.errCur, t.lastTx, t.tx, t.sessions.map Session.phase)) = some (0x0080, 0x00, [], [.poll]) := by decide

/-- E-16: the command 0x00. -/
theorem test_unsupportedTx : (after (exec (.unsupportedTx 0x00) (openAt .encode))).map
    (fun t => (t.errCur, t.lastTx, t.sessions.map Session.phase)) = some (0x0040, 0x00, [.poll]) := by decide

/-- D-4: wrong id and wrong version: nothing is flagged. -/
theorem test_gate_address : (after (step (atGates 0x04 [0x22, 0x09, 0xEE]))).map (fun t => (t.errCur, t.lastRx)) =
    some (0x0000, 0x04) := by decide

/-- D-11: broadcast with the wrong version. -/
theorem test_gate_version : (after (step (atGates 0x04 [0x3F, 0x05, 0x00]))).map (fun t => (t.errCur, t.lastRx)) =
    some (0x0001, 0x04) := by decide

/-- D-8: the expected value wraps. -/
theorem test_gate_sequence_wraps : (after (step (atGates 0xFF [0x01, 0x00, 0x00]))).map
    (fun t => (t.errCur, t.lastRx, t.ctxs.map Context.cur)) = some (0x0000, 0x00, [2]) := by decide

/-- D-9: a duplicate is a mismatch. -/
theorem test_gate_sequence_duplicate : (after (step (atGates 0x05 [0x01, 0x05, 0x00]))).map (fun t => (t.errCur, t.lastRx)) =
    some (0x0004, 0x05) := by decide

/-- D-14: version 5, id 30. -/
theorem test_gate_other_config : (after (step { atGates 0x04 [0xBE, 0x05, 0x00] with cfg := config5 })).map
    (fun t => (t.errCur, t.lastRx)) = some (0x0000, 0x05) := by decide

/-- S-5: the third entry is rejected. -/
theorem test_enter_third : (after (step atThirdEntry)).map (fun t => (t.depth, (t.sessions.map Session.phase).head?)) =
    some (3, some .reject) := by decide

/-- S-2: a failed delivery is flagged, and the session polls. -/
theorem test_transmit_fail : (after (step (atTransmit .fail))).map
    (fun t => (t.errCur, t.env.sent, t.sessions.map Session.phase)) = some (0x0010, [[0x01, 0x00, 0x03]], [.poll]) := by decide

/-- R32 (93_implementation_defined.md): `tx` before the first encode holds any value, and TRANSMIT hands it over. -/
theorem test_transmit_unwritten : (after (step (atUnwritten 32))).map
    (fun t => (t.env.sent.map List.length, t.sessions.map Session.phase)) = some ([32], [.poll]) := by decide

/-- R40: `tx` has no offset 32. -/
theorem test_transmit_beyond : after (step (atUnwritten 33)) = none := by decide

/-- R123: a nested session that is done lets the outer decode go on after its PING. -/
theorem test_done_resumes : (after (step (nestedAt .done []))).map
    (fun t => (t.sessions.map Session.phase, t.ctxs.map Context.cur, t.depth)) = some ([.decode .records], [4], 1) := by decide

/-- I-1. -/
theorem test_cycleEnd : (after (step { issued .cycleEnd with errCur := 0x0014, errPrev := 0x0001 })).map
    (fun t => (t.errPrev, t.errCur)) = some (0x0014, 0x0000) := by decide

/-- I-3. -/
theorem test_countdownTick : (after (step { issued .countdownTick with rstCnt := 0x01 })).map
    (fun t => (t.rstCnt, t.env.results)) = some (0x00, [.reboot true]) := by decide

/-- I-6. -/
theorem test_errSet : (after (step { issued (.errSet 0xFFFF) with errCur := 0x0004 })).map State.errCur = some 0xFFFF := by decide

/-- R25, R200: the read of `any_error()`. -/
theorem test_read_anyError : (after (step { issued (.read .anyError) with errCur := 0x0004, errPrev := 0x0010 })).map
    (fun t => t.env.results) = some [.value .anyError 0x0014] := by decide

/-- I-7, during a session (decision D18). -/
theorem test_blockReset : (after (step { atRecords [0x01, 0x05, 0x00] 2 with
      lastTx := 9, env := { Env.empty with resetLine := true } })).map (fun t => (t.lastTx, t.depth, t.sessions, t.ctxs)) =
    some (0x00, 0, [], []) := by decide

/-! ### Witnesses: for each obligation with hypotheses, something that meets them all -/

theorem default_legal : Config.default.legal := by decide

/-- The states of a session that the statements start from, all of them running. -/
theorem atPhase_of {s : State} {p : Phase} {top : Session} {outer : List Session} (hl : s.cfg = Config.default)
    (hr : s.env.resetLine = false) (hs : s.sessions = top :: outer) (hp : top.phase = p) : AtPhase s p top outer :=
  ⟨hl ▸ default_legal, hr, hs, hp⟩

/-- ReceivedRecordsRoundTrip: a whole record before another, a truncated one at the end, and the unknown opcodes next to the
named ones. -/
theorem witness_ReceivedRecordsRoundTrip : Config.default.legal ∧
    (∀ i ∈ [Instr.ping (some 0x7A), .unknownRx 0x05, .unknownRx 0xFF],
      i.wellFormed Config.default = true ∧ i.isReceived = true ∧ i.isTruncated = false) ∧
    (∀ i ∈ [Instr.ping none, .pongRx none, .reset none],
      i.wellFormed Config.default = true ∧ i.isReceived = true ∧ i.isTruncated = true) := by decide

/-- DecodedRecordsAreTheirBytes. -/
theorem witness_DecodedRecordsAreTheirBytes : ([0x02] : List Byte) ≠ [] := by decide

/-- OutboundRecordsRoundTrip, TruncatedRecordsEndDecode, ErrorKindsHaveTheirOwnBit: legal configurations. -/
theorem witness_legal : Config.default.legal ∧ config5.legal ∧ State.reset.cfg.legal := by decide

/-- StatusBitTogglesOneField: a bit that is none of the fields', and each field's own. -/
theorem witness_StatusBitTogglesOneField : (15 : Fin 16) ∉ Config.default.statusBits ∧
    (∀ i ∈ [(0 : Fin 16), 1, 2, 4], i ∈ Config.default.statusBits) := by decide

/-- MemWriteReadsBack: the last offset that holds a field, and the first that does not; an offset outside; a canonical memory. -/
theorem witness_MemWriteReadsBack : 30 + 2 ≤ 32 ∧ 32 < 31 + 2 ∧ (29 < 30 ∨ 30 + 2 ≤ 29) ∧ (32 < 30 ∨ 30 + 2 ≤ 32) ∧
    Memory.wf [] := by decide

/-- StepRunsDecodedRecord: NOP, the last byte of its frame. -/
theorem witness_StepRunsDecodedRecord :
    AtPhase (atRecords [0x01, 0x05, 0x00] 2) (.decode .records) (sessionAt (.decode .records)) [] ∧
    (atRecords [0x01, 0x05, 0x00] 2).ctxs = [context [0x01, 0x05, 0x00] 2] ∧
    (context [0x01, 0x05, 0x00] 2).cur < (context [0x01, 0x05, 0x00] 2).rxLen ∧
    (context [0x01, 0x05, 0x00] 2).stream = some [0x00] ∧
    decode (atRecords [0x01, 0x05, 0x00] 2).cfg [0x00] = .record .nop [] :=
  ⟨atPhase_of rfl rfl rfl rfl, rfl, by decide, by decide, by decide⟩

/-- A session at ENCODE with the given command. -/
def atEncode (cmd : Byte) : State := { openAt .encode with sessions := [{ phase := .encode, request := request cmd [0x7A] }] }

/-- StepRunsRequestedEncode: each of its three commands. -/
theorem witness_StepRunsRequestedEncode :
    (∀ cmd, AtPhase (atEncode cmd) .encode { phase := .encode, request := request cmd [0x7A] } []) ∧
    (request 0x01 [0x7A]).cmd = Config.default.opcStatus ∧ (request 0x03 [0x7A]).cmd = opcPong ∧
    (request 0x02 [0x7A]).cmd ≠ Config.default.opcStatus ∧ (request 0x02 [0x7A]).cmd ≠ opcPong :=
  ⟨fun _ => atPhase_of rfl rfl rfl rfl, by decide, by decide, by decide, by decide⟩

/-- The reset state with another configuration. -/
def withConfig (c : Config) : State := { State.reset with cfg := c }

/-- IllegalConfigRefused: one configuration for each of its four collisions. -/
theorem witness_IllegalConfigRefused :
    (withConfig { Config.default with deviceId := 31 }).cfg.deviceId = 31 ∧
    (let c := (withConfig { Config.default with opcReset := 2 }).cfg;
      ¬ [c.opcNop, c.opcStatus, 2, 3, c.opcReset].Nodup) ∧
    (let c := (withConfig { Config.default with sBatt := 0 }).cfg;
      ¬ [0, c.sRuntime, c.sBatt, c.sLowBatt, c.sHumTemp].Nodup) ∧
    (let c := (withConfig { Config.default with eDepth := 7 }).cfg;
      ErrorKind.depth ≠ ErrorKind.encSize ∧ c.ebit .depth = c.ebit .encSize) := by decide

/-- PlacedWordRunsNext. -/
theorem witness_PlacedWordRunsNext : State.reset.cfg = Config.default ∧ decodeTableWord 16 0x0304 = some (.reset (some 0x03)) := by
  decide

/-- NopOnlyAdvances, ReceivedPongFlagged and ResetStoresCountdown in their first parts: a context on the stack. -/
theorem witness_context : (atRecords [0x01, 0x05, 0x00] 2).ctxs = [context [0x01, 0x05, 0x00] 2] := rfl

/-- TruncatedRecordsEndDecode, ReceivedPongFlagged, ResetStoresCountdown, UnknownOpcodeAborts, ReceivedStatusAborts: a session
and its context. -/
theorem witness_sessionAndContext : (atRecords [0x01, 0x05, 0x02] 2).sessions = [sessionAt (.decode .records)] ∧
    (atRecords [0x01, 0x05, 0x02] 2).ctxs = [context [0x01, 0x05, 0x02] 2] := ⟨rfl, rfl⟩

/-- UnknownOpcodeAborts: the opcodes next to the named ones. -/
theorem witness_UnknownOpcodeAborts : 0x05 ∉ Config.default.opcodes ∧ 0xFF ∉ Config.default.opcodes := by decide

/-- ReceivedRecordFrame: a record that runs, and for each of its two exceptions an instruction outside it. -/
theorem witness_ReceivedRecordFrame : Instr.nop.isReceived = true ∧
    (∃ t, exec .nop (atRecords [0x01, 0x05, 0x00] 2) = .next t) ∧
    (∀ e, Instr.nop ≠ .pongRx e) ∧ Instr.nop ≠ .statusRx ∧ (∀ op, Instr.nop ≠ .unknownRx op) ∧
    (∀ n, Instr.nop ≠ .reset (some n)) :=
  ⟨rfl, exec_answers _ _, nofun, nofun, nofun, nofun⟩

/-- StatusBuildsItsFrame, UnsupportedCommandAborts: an open session. -/
theorem witness_session : (openAt .encode).sessions = [sessionAt .encode] := rfl

/-- PongBuildsItsFrame, OversizePongAborts: the longest payload that fits, and the shortest that does not. -/
theorem witness_pongLengths : (openAt .encode).sessions = [sessionAt .encode] ∧
    (List.replicate 29 (0 : Byte)).length ≤ 29 ∧ 30 ≤ (List.replicate 30 (0 : Byte)).length := by decide

/-- EncodeFrame: a frame built and an encode aborted. -/
theorem witness_EncodeFrame : (Instr.pongTx [0x7A]).isReceived = false ∧ (Instr.unsupportedTx 0x00).isReceived = false ∧
    (∃ t, exec (.pongTx [0x7A]) (openAt .encode) = .next t) ∧ (∃ t, exec (.unsupportedTx 0x00) (openAt .encode) = .next t) :=
  ⟨rfl, rfl, exec_answers _ _, exec_answers _ _⟩

/-- ShortFrameIsSilent: the longest frame that is short. -/
theorem witness_ShortFrameIsSilent :
    AtPhase (atGates 0x04 [0x01, 0x05]) (.decode .gates) (sessionAt (.decode .gates)) [] ∧
    (atGates 0x04 [0x01, 0x05]).ctxs = [context [0x01, 0x05] 0] ∧ (context [0x01, 0x05] 0).rxLen < 3 :=
  ⟨atPhase_of rfl rfl rfl rfl, rfl, by decide⟩

/-- What AddressGate, VersionGate and SequenceCheckResynchronises ask of a state, for a frame of the shortest length. -/
def GateHypotheses (b0 b1 : Byte) : Prop :=
  AtPhase (atGates 0x04 [b0, b1, 0x00]) (.decode .gates) (sessionAt (.decode .gates)) [] ∧
  (atGates 0x04 [b0, b1, 0x00]).ctxs = [context [b0, b1, 0x00] 0] ∧ 3 ≤ (context [b0, b1, 0x00] 0).rxLen ∧
  (context [b0, b1, 0x00] 0).byteAt 0 = some b0 ∧ (context [b0, b1, 0x00] 0).byteAt 1 = some b1

theorem gateHypotheses (b0 b1 : Byte) : GateHypotheses b0 b1 :=
  ⟨atPhase_of rfl rfl rfl rfl, rfl, Nat.le_refl 3, rfl, rfl⟩

/-- AddressGate: id 2 and id 30 are not this node's, ids 1 and 31 are accepted with version 0. -/
theorem witness_AddressGate :
    (∀ b0 ∈ [(0x02 : Byte), 0x1E], GateHypotheses b0 0x05 ∧ b0.extractLsb' 0 5 ≠ Config.default.deviceId ∧
      b0.extractLsb' 0 5 ≠ (31 : BitVec 5)) ∧
    (∀ b0 ∈ [(0x01 : Byte), 0x1F], GateHypotheses b0 0x05 ∧
      (b0.extractLsb' 0 5 = Config.default.deviceId ∨ b0.extractLsb' 0 5 = (31 : BitVec 5)) ∧
      b0.extractLsb' 5 3 = Config.default.protoVersion) := by
  simp only [gateHypotheses, true_and]
  decide

/-- VersionGate: versions 1 and 7, this node's id and the broadcast id. -/
theorem witness_VersionGate : ∀ b0 ∈ [(0x21 : Byte), 0x3F, 0xE1], GateHypotheses b0 0x05 ∧
    (b0.extractLsb' 0 5 = Config.default.deviceId ∨ b0.extractLsb' 0 5 = (31 : BitVec 5)) ∧
    b0.extractLsb' 5 3 ≠ Config.default.protoVersion := by
  simp only [gateHypotheses, true_and]
  decide

/-- SequenceCheckResynchronises: a match, a duplicate and a gap, when `LAST_RX` is 4. -/
theorem witness_SequenceCheckResynchronises : ∀ sq ∈ [(0x05 : Byte), 0x04, 0x06], GateHypotheses 0x01 sq ∧
    (0x01 : Byte).extractLsb' 0 5 = Config.default.deviceId ∧ (0x01 : Byte).extractLsb' 5 3 = Config.default.protoVersion ∧
    (sq = (atGates 0x04 [0x01, sq, 0x00]).lastRx + 1 ↔ sq = 0x05) := by
  simp only [gateHypotheses, true_and]
  decide

/-- FrameEndReturns: the cursor at the end of its frame. -/
theorem witness_FrameEndReturns :
    AtPhase (atRecords [0x01, 0x05, 0x00] 3) (.decode .records) (sessionAt (.decode .records)) [] ∧
    (atRecords [0x01, 0x05, 0x00] 3).ctxs = [context [0x01, 0x05, 0x00] 3] ∧
    (context [0x01, 0x05, 0x00] 3).rxLen ≤ (context [0x01, 0x05, 0x00] 3).cur :=
  ⟨atPhase_of rfl rfl rfl rfl, rfl, by decide⟩

/-- EnterIncrementsDepth, DeepEntryIsRejected: the second entry, which is within the bound, and the third, which is not. -/
theorem witness_EnterIncrementsDepth :
    AtPhase (nestedAt .enter []) .enter (sessionAt .enter) [sessionAt (.decode .records)] ∧ (nestedAt .enter []).depth + 1 ≤ 2 ∧
    AtPhase atThirdEntry .enter (sessionAt .enter) [sessionAt (.decode .records), sessionAt (.decode .records)] ∧
    2 < atThirdEntry.depth + 1 :=
  ⟨atPhase_of rfl rfl rfl rfl, by decide, atPhase_of rfl rfl rfl rfl, by decide⟩

/-- TransmitHandsOverTheFrame: both answers, a written frame, and the longest one with no byte of it written. -/
theorem witness_TransmitHandsOverTheFrame (a : TransmitAnswer) :
    (AtPhase (atTransmit a) .transmit (sessionAt .transmit) [] ∧ (atTransmit a).txLen ≤ 32 ∧
      (atTransmit a).tx.read 2 = some 0x03 ∧ (atTransmit a).env.transmitAnswers = [a]) ∧
    AtPhase (atUnwritten 32) .transmit (sessionAt .transmit) [] ∧ (atUnwritten 32).txLen ≤ 32 ∧ (atUnwritten 32).tx.read 31 = none :=
  ⟨⟨atPhase_of rfl rfl rfl rfl, by simp [atTransmit], rfl, rfl⟩, atPhase_of rfl rfl rfl rfl, by decide, rfl⟩

/-- The session at RECEIVE, one frame supplied. -/
def atReceive (f : List Byte) : State := { openAt .receive with env := { Env.empty with receiveAnswers := [f] } }

/-- PollAndReceive: an answer to the poll, the longest frame, and one byte more. -/
theorem witness_PollAndReceive :
    AtPhase { openAt .poll with env := { Env.empty with readyAnswers := [true] } } .poll (sessionAt .poll) [] ∧
    (∀ f, AtPhase (atReceive f) .receive (sessionAt .receive) [] ∧ (atReceive f).env.receiveAnswers = [f]) ∧
    (List.replicate 32 (0 : Byte)).length ≤ 32 ∧ 32 < (List.replicate 33 (0 : Byte)).length :=
  ⟨atPhase_of rfl rfl rfl rfl, fun _ => ⟨atPhase_of rfl rfl rfl rfl, rfl⟩, by decide, by decide⟩

/-- ExitRestoresDepth: EXIT, DONE of the outermost session, and DONE of a nested one. -/
theorem witness_ExitRestoresDepth :
    AtPhase (openAt .exit) .exit (sessionAt .exit) [] ∧ AtPhase (openAt .done) .done (sessionAt .done) [] ∧
    AtPhase (nestedAt .done []) .done (sessionAt .done) [sessionAt (.decode .records)] ∧
    [sessionAt (.decode .records)] ≠ [] ∧ (nestedAt .done []).ctxs = [context [0x01, 0x01, 0x02, 0x10, 0x04, 0x01] 2] :=
  ⟨atPhase_of rfl rfl rfl rfl, atPhase_of rfl rfl rfl rfl, atPhase_of rfl rfl rfl rfl, nofun, rfl⟩

/-- A PING at depth 1, its answers supplied (vector C-1). -/
def atPing : State :=
  { atRecords [0x01, 0x05, 0x02, 0x7A] 2 with
    env := { Env.empty with transmitAnswers := [.ok], readyAnswers := [false] } }

/-- PingRepliesAndResumes. -/
theorem witness_PingRepliesAndResumes :
    AtPhase atPing (.decode .records) (sessionAt (.decode .records)) [] ∧
    atPing.ctxs = [context [0x01, 0x05, 0x02, 0x7A] 2] ∧
    (context [0x01, 0x05, 0x02, 0x7A] 2).stream = some [opcPing, 0x7A] ∧ atPing.depth + 1 ≤ 2 ∧
    atPing.env.transmitAnswers = [.ok] ∧ atPing.env.readyAnswers = [false] :=
  ⟨atPhase_of rfl rfl rfl rfl, rfl, by decide, by decide, rfl, rfl⟩

/-- PingAtTheBoundSendsNothing: the PING of program P3 at depth 2. -/
theorem witness_PingAtTheBoundSendsNothing :
    AtPhase atDeepPing (.decode .records) (sessionAt (.decode .records)) [sessionAt (.decode .records)] ∧
    atDeepPing.ctxs = [context [0x01, 0x02, 0x02, 0x20, 0x02, 0x30] 2, context [0x01, 0x01, 0x02, 0x10, 0x04, 0x01] 2] ∧
    (context [0x01, 0x02, 0x02, 0x20, 0x02, 0x30] 2).stream = some [opcPing, 0x20, 0x02, 0x30] ∧ atDeepPing.depth = 2 :=
  ⟨atPhase_of rfl rfl rfl rfl, rfl, by decide, by decide⟩

/-- StatusSessionSendsOneFrame: vectors S-1 and S-2, from the state after reset. -/
theorem witness_StatusSessionSendsOneFrame (a : TransmitAnswer) :
    let r := { request 0x01 [] with status := recordE8 }
    let s := { State.reset with
      env := { Env.empty with hostOps := [.session r], transmitAnswers := [a], readyAnswers := [false] } }
    s.cfg.legal ∧ s.env.resetLine = false ∧ idle s ∧ s.env.hostOps = [.session r] ∧ r.cmd = s.cfg.opcStatus ∧
      s.env.transmitAnswers = [a] ∧ s.env.readyAnswers = [false] :=
  ⟨default_legal, rfl, ⟨rfl, rfl, rfl⟩, rfl, rfl, rfl, rfl⟩

/-- CycleEndRotatesErrors, CountdownTickFiresAtZero, ErrSetAndRegisterReads: the idle block with an operation issued. -/
theorem witness_issued (op : HostOp) : (issued op).cfg.legal ∧ (issued op).env.resetLine = false ∧ (issued op).sessions = [] ∧
    (issued op).env.hostOps = [op] := ⟨default_legal, rfl, rfl, rfl⟩

/-- CountdownTickFiresAtZero: the countdown at 0, at 1 and at its largest. -/
theorem witness_CountdownTickFiresAtZero : (issued .countdownTick).rstCnt = 0 ∧
    ({ issued .countdownTick with rstCnt := 1 } : State).rstCnt ≠ 0 ∧
    ({ issued .countdownTick with rstCnt := 0xFF } : State).rstCnt ≠ 0 := by decide

/-- ResetAbandonsEverything: the reset line during a session, and a RESET issued to the idle block. -/
theorem witness_ResetAbandonsEverything :
    (∃ s : State, s.cfg.legal ∧ s.env.resetLine = true ∧ s.sessions ≠ []) ∧
    (issued .reset).cfg.legal ∧ (issued .reset).sessions = [] ∧ (issued .reset).env.hostOps = [.reset] :=
  ⟨⟨{ openAt .poll with env := { Env.empty with resetLine := true } }, by decide, rfl, nofun⟩, by decide, rfl, rfl⟩

/-- HostOperationsWait: the block idle with nothing issued, and a session that steps. -/
theorem witness_HostOperationsWait :
    (State.reset.cfg.legal ∧ State.reset.env.resetLine = false ∧ State.reset.sessions = [] ∧ State.reset.env.hostOps = []) ∧
    (openAt .exit).sessions ≠ [] ∧ (∃ t, step (openAt .exit) = .next t) :=
  ⟨⟨by decide, rfl, rfl, rfl⟩, nofun, after_isSome (by decide)⟩

/-! #### The invariant's witnesses -/

/-- A received frame's context is sound, wherever in it the cursor is. -/
theorem context_ok (f : List Byte) (cur : Nat) (hl : f.length ≤ 32) (hc : cur ≤ f.length) : ContextOk (context f cur) :=
  ⟨FrameOk.ofBytes f, hl, hc⟩

/-- One session that is not decoding, nothing in `tx`. -/
theorem openAt_inv (p : Phase) (hd : decoding p = false) (ht : p ≠ .transmit) (hr : p ≠ .reject) : Inv (openAt p) :=
  Inv.of_cons (top := sessionAt p) (outer := []) rfl ⟨nofun, by simp, by simp, fun h => absurd h hr⟩
    (by simp [openAt, sessionAt]) (by simp [sessionAt, hd]; rfl) nofun (by rw [sessionAt, hd]; nofun)
    (fun _ _ _ => CursorOk.of_not_decoding hd) Memory.wf_nil nofun (Nat.zero_le _) (fun h => absurd h ht)

/-- One session in its record loop. -/
theorem atRecords_inv (f : List Byte) (cur : Nat) (hl : f.length ≤ 32) (h2 : 2 ≤ cur) (hc : cur ≤ f.length) :
    Inv (atRecords f cur) :=
  Inv.of_cons (top := sessionAt (.decode .records)) (outer := []) rfl ⟨nofun, by simp, by simp, nofun⟩
    rfl rfl (by simpa [atRecords] using context_ok f cur hl hc) (by simp [atRecords, sessionAt])
    (fun ctx rest h => by cases h; exact ⟨nofun, fun _ => h2⟩) Memory.wf_nil nofun (Nat.zero_le _) nofun

/-- StepKeepsInvariant, SoundStatesNeverFault, ReceiveFramesNeverWritten: a sound state in the middle of a decode, which steps. -/
theorem witness_StepKeepsInvariant : Inv (atRecords [0x01, 0x05, 0x04, 0x03] 2) ∧
    (∃ t, step (atRecords [0x01, 0x05, 0x04, 0x03] 2) = .next t) :=
  ⟨atRecords_inv _ _ (by decide) (by decide) (by decide), after_isSome (by decide)⟩

/-- A sound state stays sound whatever the environment has supplied, whatever the registers hold and whatever is configured. -/
theorem inv_of_same {s t : State} (h : Inv s) (hd : t.depth = s.depth) (hs : t.sessions = s.sessions) (hx : t.ctxs = s.ctxs)
    (ht : t.tx = s.tx) (hl : t.txLen = s.txLen) : Inv t := by
  obtain ⟨a, b, c, d, e, f, g⟩ := h
  exact ⟨by rw [hd, hs]; exact a, by rw [hs]; exact b, by rw [hs, hx]; exact c, by rw [hx]; exact d,
    by rw [outerContexts, hs, hx]; exact e, by rw [InnerCursorOk, hs, hx]; exact f,
    ⟨by rw [ht]; exact g.wf, by rw [ht]; exact g.within, by rw [hl]; exact g.len, by rw [hs, ht, hl]; exact g.built⟩⟩

/-- RefusalsNameTheirCause: a sound state with a delivery that is too long, one with an illegal configuration, and one that
meets the conditions of its second part. -/
theorem witness_RefusalsNameTheirCause : Inv (atReceive (List.replicate 33 0)) ∧
    Inv { openAt .poll with cfg := { Config.default with deviceId := 31 } } ∧
    Inv (atReceive (List.replicate 32 0)) ∧ (atReceive (List.replicate 32 0)).cfg.legal ∧
    (∀ f ∈ (atReceive (List.replicate 32 0)).env.receiveAnswers, f.length ≤ 32) :=
  ⟨inv_of_same (openAt_inv .receive rfl nofun nofun) rfl rfl rfl rfl rfl,
   inv_of_same (openAt_inv .poll rfl nofun nofun) rfl rfl rfl rfl rfl,
   inv_of_same (openAt_inv .receive rfl nofun nofun) rfl rfl rfl rfl rfl, by decide, by decide⟩

/-- LastRxWriters, LastTxWriters, ErrorBitsStay, ErrPrevWriters, CountdownWriters, ConfigNeverChanges: states that step, at each
of their writers. -/
theorem witness_writers : (∃ t, step (atGates 0x04 [0x01, 0x05, 0x00]) = .next t) ∧ (∃ t, step (atEncode 0x03) = .next t) ∧
    (∃ t, step (issued .cycleEnd) = .next t) ∧ (∃ t, step (atRecords [0x01, 0x05, 0x04, 0x03] 2) = .next t) ∧
    (∃ t, step { issued .countdownTick with rstCnt := 1 } = .next t) ∧ (∃ t, step (issued .reset) = .next t) :=
  ⟨after_isSome (by decide), after_isSome (by decide), after_isSome (by decide), after_isSome (by decide),
   after_isSome (by decide), after_isSome (by decide)⟩

/-- OuterDecodesUndisturbed: a nested session at EXIT, the outer decode waiting at its PING. -/
theorem witness_OuterDecodesUndisturbed : Inv (nestedAt .exit []) ∧ (nestedAt .exit []).env.resetLine = false ∧
    (nestedAt .exit []).sessions = [sessionAt .exit, sessionAt (.decode .records)] ∧ (sessionAt .exit).phase ≠ .done ∧
    (∃ t, step (nestedAt .exit []) = .next t) :=
  ⟨Inv.of_cons (top := sessionAt .exit) (outer := [sessionAt (.decode .records)]) rfl
      ⟨by simp [sessionAt], by decide, by simp, nofun⟩ rfl rfl
      (by simpa [nestedAt] using context_ok [0x01, 0x01, 0x02, 0x10, 0x04, 0x01] 2 (by decide) (by decide))
      (by simpa [nestedAt, sessionAt] using
        (⟨by decide, by decide, by decide⟩ : SuspendedOk (context [0x01, 0x01, 0x02, 0x10, 0x04, 0x01] 2)))
      (fun _ _ _ => CursorOk.of_not_decoding rfl) Memory.wf_nil nofun (Nat.zero_le _) nofun,
   rfl, rfl, nofun, after_isSome (by decide)⟩

/-- FramesLeaveOnlyAtTransmit: a sound session about to transmit, which steps. -/
theorem witness_FramesLeaveOnlyAtTransmit : Inv (atTransmit .ok) ∧ (∃ t, step (atTransmit .ok) = .next t) :=
  ⟨Inv.of_cons (top := sessionAt .transmit) (outer := []) rfl ⟨nofun, by decide, by decide, nofun⟩ rfl rfl nofun nofun
      (fun _ _ _ => CursorOk.of_not_decoding rfl) (by decide) (by decide) (by decide)
      (fun _ => ⟨by decide, fun a h => (FrameOk.ofBytes [0x01, 0x00, 0x03]).full a h⟩),
   after_isSome (by decide)⟩

/-- SessionsComplete: a session that has just entered, nothing supplied. -/
theorem witness_SessionsComplete : Inv (openAt .enter) ∧ (openAt .enter).cfg.legal ∧ (openAt .enter).env.resetLine = false ∧
    (∀ f ∈ (openAt .enter).env.receiveAnswers, f.length ≤ 32) :=
  ⟨openAt_inv .enter rfl nofun nofun, by decide, rfl, nofun⟩

/-- SessionSendsAtMostSixteen: a session of the host at ENTER, and a run of it. -/
theorem witness_SessionSendsAtMostSixteen : Inv (openAt .enter) ∧ (openAt .enter).env.resetLine = false ∧
    (openAt .enter).sessions = [{ phase := .enter, request := Request.empty }] ∧ (openAt .enter).env.hostOps = [] ∧
    (∃ t, run 1 (openAt .enter) = .next t) :=
  ⟨openAt_inv .enter rfl nofun nofun, rfl, rfl, rfl, after_isSome (by decide)⟩

end Sys2Proof.Tests
end

section
/-! PROOFS. A field written to a frame space and read back (R13, R42). -/
namespace Sys2Proof

/-- R42: the little-endian bytes of a field stand for its value. -/
theorem leNat_leBytes (n : Nat) (v : BitVec (8 * n)) : leNat (leBytes n v) = v.toNat := by
  induction n with
  | zero => exact (BitVec.toNat_of_zero_length rfl v).symm
  | succ n ih =>
    have hlow : (v.setWidth 8).toNat = v.toNat % 256 := by simp
    have hlt : v.toNat / 256 < 2 ^ (8 * n) := by
      have hv : v.toNat < 256 * 2 ^ (8 * n) := by
        calc v.toNat < 2 ^ (8 * (n + 1)) := v.isLt
          _ = 256 * 2 ^ (8 * n) := by rw [Nat.mul_succ, Nat.pow_add]; omega
      omega
    have hhigh : ((v >>> 8).setWidth (8 * n)).toNat = v.toNat / 256 := by
      rw [BitVec.toNat_setWidth, BitVec.toNat_ushiftRight, Nat.shiftRight_eq_div_pow]
      exact Nat.mod_eq_of_lt hlt
    rw [leBytes, leNat, ih, hlow, hhigh]
    omega

end Sys2Proof

namespace Sys2Proof.Machine

/-- R13: a field that was stored reads back as bytes. -/
theorem Memory.readBytes_memWrite (m : Memory) (a n : Nat) (v : BitVec (8 * n)) :
    (m.memWrite a n v).readBytes a n = some (leBytes n v) := by
  have h := m.readBytes_writeBytes a (leBytes n v)
  rwa [length_leBytes] at h

/-- R13: storing a field changes no byte outside it. -/
theorem Memory.read_memWrite_of_outside (m : Memory) (a n : Nat) (v : BitVec (8 * n)) {b : Nat} (h : b < a ∨ a + n ≤ b) :
    (m.memWrite a n v).read b = m.read b := by
  rw [Memory.memWrite, Memory.read_writeBytes, length_leBytes, if_neg (by omega)]

theorem Memory.wf_memWrite {m : Memory} (h : m.wf) (a n : Nat) (v : BitVec (8 * n)) : (m.memWrite a n v).wf :=
  Memory.wf_writeBytes h a (leBytes n v)

/-- R13: within the frame's length, a field whose bytes have values reads as the number they stand for. -/
theorem Context.memRead_of_readBytes {ctx : Context} {a n : Nat} {bs : List Byte} (hl : a + n ≤ ctx.rxLen)
    (h : ctx.rx.readBytes a n = some bs) : ctx.memRead a n = some (BitVec.ofNat (8 * n) (leNat bs)) := by
  rw [Context.memRead, if_pos hl, h, Option.map_some]

/-- R13: a field that goes beyond the frame's length has no value. -/
theorem Context.memRead_beyond {ctx : Context} {a n : Nat} (hl : ctx.rxLen < a + n) : ctx.memRead a n = none :=
  if_neg (Nat.not_le.2 hl)

/-- Settles O8: the stored bytes are those that are read, and the bytes stand for the value. -/
theorem memWriteReadsBack : Obligations.MemWriteReadsBack := by
  intro m a n v len cur
  refine ⟨fun hl => ?_, fun hl => Context.memRead_beyond hl, fun b hb => m.read_memWrite_of_outside a n v hb,
    fun hm => Memory.wf_memWrite hm a n v⟩
  rw [Context.memRead_of_readBytes hl (m.readBytes_memWrite a n v), leNat_leBytes, BitVec.ofNat_toNat, BitVec.setWidth_eq]

end Sys2Proof.Machine
end

section
/-! PROOFS. The positions of the error kinds (R211) and what a legal configuration says of them. -/
namespace Sys2Proof

/-- The eight error kinds, in the order of `Config.errorBits`. -/
def ErrorKind.all : List ErrorKind :=
  [.version, .unknownCmd, .seq, .unexpectedCmd, .cannotDeliver, .depth, .encCmd, .encSize]

theorem ErrorKind.mem_all (e : ErrorKind) : e ∈ ErrorKind.all := by cases e <;> decide

theorem ErrorKind.nodup_all : ErrorKind.all.Nodup := by decide

theorem Config.errorBits_eq_map (c : Config) : c.errorBits = ErrorKind.all.map c.ebit := rfl

/-- R211: the positions of the error mask are pairwise distinct exactly when `ebit` is injective. -/
theorem Config.nodup_errorBits_iff (c : Config) : c.errorBits.Nodup ↔ Function.Injective c.ebit := by
  rw [Config.errorBits_eq_map, List.nodup_map_iff_inj_on ErrorKind.nodup_all]
  exact ⟨fun h e e' => h e e.mem_all e' e'.mem_all, fun h e _ e' _ => @h e e'⟩

/-- R211: a legal configuration gives different error kinds different bits. -/
theorem Config.legal.ebit_injective {c : Config} (h : c.legal) : Function.Injective c.ebit := by
  obtain ⟨-, -, -, herr⟩ := h
  exact c.nodup_errorBits_iff.1 herr

end Sys2Proof

namespace Sys2Proof.Machine

theorem errorMask_eq_twoPow (c : Config) (e : ErrorKind) : errorMask c e = BitVec.twoPow 16 (c.ebit e).val :=
  (BitVec.twoPow_eq 16 _).symm

/-- R211: the mask of an error kind is the single bit at the kind's position. -/
theorem toNat_errorMask (c : Config) (e : ErrorKind) : (errorMask c e).toNat = 2 ^ (c.ebit e).val := by
  rw [errorMask_eq_twoPow, BitVec.toNat_twoPow_of_lt (c.ebit e).isLt]

/-- R211: masks at different positions have no bit in common. -/
theorem errorMask_and_eq_zero {c : Config} {e e' : ErrorKind} (h : c.ebit e ≠ c.ebit e') :
    errorMask c e &&& errorMask c e' = 0 := by
  have hne : (c.ebit e).val ≠ (c.ebit e').val := fun hv => h (Fin.ext hv)
  rw [errorMask_eq_twoPow, errorMask_eq_twoPow, BitVec.and_twoPow, BitVec.getLsbD_twoPow]
  simp [hne]

/-- R14: `raise` ORs the mask of its kind into `ERR_CUR` and changes nothing else. -/
theorem State.raise_eq (s : State) (e : ErrorKind) : s.raise e = { s with errCur := s.errCur ||| errorMask s.cfg e } := rfl

/-- R14: raising an error kind again changes nothing. -/
theorem State.raise_raise (s : State) (e : ErrorKind) : (s.raise e).raise e = s.raise e := by
  simp only [State.raise_eq, BitVec.or_assoc, BitVec.or_self]

/-- Settles O60: legality makes the positions of the kinds distinct; the rest holds of every configuration. -/
theorem errorKindsHaveTheirOwnBit : Obligations.ErrorKindsHaveTheirOwnBit := by
  intro s hc
  exact ⟨fun e e' hne => errorMask_and_eq_zero (hc.ebit_injective.ne hne), toNat_errorMask s.cfg,
    fun e => ⟨s.raise_raise e, s.raise_eq e⟩⟩

/-- Settles O11: each of the four cases contradicts its part of a legal configuration. -/
theorem illegalConfigRefused : Obligations.IllegalConfigRefused := by
  intro s h
  refine step_of_illegal fun hc => ?_
  have hinj := hc.ebit_injective
  obtain ⟨hid, hopc, hstatus, -⟩ := hc
  rcases h with h | h | h | ⟨e, e', hne, he⟩
  · exact hid h
  · exact h hopc
  · exact h hstatus
  · exact hne (hinj he)

end Sys2Proof.Machine
end

section
/-! PROOFS. When a step answers a next state: in every state that meets the invariant, unless the configuration is illegal or a
supplied delivery is overlong. -/
namespace Sys2Proof.Safety

open Sys2Proof.Machine

/-! ### Reads inside a sound frame -/

/-- R13, R30: every byte below `RX_LEN` of a sound frame is there. -/
theorem ContextOk.exists_byteAt {ctx : Context} (h : ContextOk ctx) {a : Nat} (ha : a < ctx.rxLen) : ∃ b, ctx.byteAt a = some b := by
  rw [Context.byteAt, if_pos ha]
  exact Option.isSome_iff_exists.1 (h.frame.full a ha)

/-- R109: the unread bytes of a sound frame are there, from the cursor to the end. -/
theorem ContextOk.exists_stream {ctx : Context} (h : ContextOk ctx) :
    ∃ bytes, ctx.stream = some bytes ∧ bytes.length = ctx.rxLen - ctx.cur := by
  obtain ⟨bytes, hb⟩ := Memory.readBytes_isSome (n := ctx.rxLen - ctx.cur) fun i _ => h.frame.full (ctx.cur + i) (by omega)
  exact ⟨bytes, hb, Memory.readBytes_length hb⟩

/-- R29: a decoding session has its context on the stack. -/
theorem Inv.context_of_decoding {s : State} (h : Inv s) {top : Session} {outer : List Session} (hs : s.sessions = top :: outer)
    (hd : decoding top.phase = true) : ∃ ctx rest, s.ctxs = ctx :: rest ∧ ContextOk ctx := by
  have hlen : s.ctxs.length = outer.length + 1 := by simpa [hd] using h.contexts_cons hs
  obtain ⟨ctx, rest, hx⟩ := List.exists_cons_of_length_eq_add_one hlen
  exact ⟨ctx, rest, hx, h.context ctx (by simp [hx])⟩

/-! ### The actions that read a frame -/

/-- R101 to R107: the gates of a sound frame never fault. -/
theorem decodeGates_answers {s : State} {ctx : Context} {rest : List Context} (hx : s.ctxs = ctx :: rest) (h : ContextOk ctx) :
    ∃ t, decodeGates s = .next t := by
  simp only [decodeGates, hx]
  by_cases hl : ctx.rxLen < minFrame
  · exact ⟨_, if_pos hl⟩
  have hlen : 3 ≤ ctx.rxLen := Nat.not_lt.1 hl
  obtain ⟨b0, h0⟩ := h.exists_byteAt (a := 0) (by omega)
  obtain ⟨sq, h1⟩ := h.exists_byteAt (a := 1) (by omega)
  simp only [if_neg hl, h0, h1]
  split
  · exact ⟨_, rfl⟩
  · split <;> exact ⟨_, rfl⟩

/-- R108 to R110: the record loop of a sound frame never faults. -/
theorem recordAction_answers {s : State} {ctx : Context} {rest : List Context} (hx : s.ctxs = ctx :: rest) (h : ContextOk ctx) :
    ∃ t, (recordAction s).outcome s = .next t := by
  simp only [recordAction, hx]
  by_cases hcur : ctx.cur < ctx.rxLen
  · obtain ⟨bytes, hb, hlen⟩ := h.exists_stream
    have hne : bytes ≠ [] := List.length_pos_iff.1 (by omega)
    obtain ⟨i, tail, hd⟩ := decode_isRecord (c := s.cfg) hne
    simp only [if_pos hcur, hb, hd]
    exact exec_answers i s
  · exact ⟨_, by rw [if_neg hcur]; rfl⟩

/-! ### Deliveries -/

/-- R195: only a supplied delivery can be overlong. -/
theorem supplied_of_overlong {e : Env} (h : maxFrame < e.drawReceive.1.length) :
    ∃ f fs, e.receiveAnswers = f :: fs ∧ maxFrame < f.length := by
  cases hq : e.receiveAnswers with
  | nil =>
    have hfree : e.drawReceive.1.length ≤ maxFrame := by simp [Env.drawReceive, hq]
    exact absurd h (Nat.not_lt.2 hfree)
  | cons f fs => exact ⟨f, fs, rfl, by simpa [Env.drawReceive, hq] using h⟩

/-- R195 (decision D12): an overlong delivery is refused. -/
theorem step_of_overlong {s : State} {top : Session} {outer : List Session} (h : AtPhase s .receive top outer)
    (hf : maxFrame < s.env.drawReceive.1.length) : step s = .refused .receiveTooLong := by
  rw [step_of_session h.legal h.noReset h.sessions, sessionAction, h.phase]
  exact if_pos hf

/-! ### The step -/

/-- R243, R202: the idle block never stops. -/
theorem idleStep_answers (s : State) : ∃ t, idleStep s = .next t := by
  rw [idleStep]
  split <;> exact ⟨_, rfl⟩

/-- R170: the innermost session of a sound state moves, whatever its state, unless it receives an overlong delivery. -/
theorem Inv.sessionAction_answers {s : State} (h : Inv s) {top : Session} {outer : List Session} (hs : s.sessions = top :: outer)
    (hf : top.phase = .receive → s.env.drawReceive.1.length ≤ maxFrame) : ∃ t, (sessionAction s top).outcome s = .next t := by
  rw [sessionAction]
  cases hp : top.phase with
  | enter => exact ⟨_, rfl⟩
  | reject => exact ⟨_, rfl⟩
  | encode => exact exec_answers _ s
  | transmit => exact ⟨_, if_neg (Nat.not_lt.2 h.tx.len)⟩
  | poll => exact ⟨_, rfl⟩
  | receive => exact ⟨_, if_neg (Nat.not_lt.2 (hf hp))⟩
  | decode stage =>
    obtain ⟨ctx, rest, hx, hctx⟩ := h.context_of_decoding hs (by rw [hp]; rfl)
    cases stage with
    | gates => exact decodeGates_answers hx hctx
    | records => exact recordAction_answers hx hctx
  | exit => exact ⟨_, rfl⟩
  | done => cases outer <;> simp only [sessionDone, hs] <;> exact ⟨_, rfl⟩

/-- A sound state with a legal configuration steps, unless it receives an overlong delivery. -/
theorem Inv.step_answers {s : State} (h : Inv s) (hc : s.cfg.legal)
    (hf : ∀ top outer, AtPhase s .receive top outer → s.env.drawReceive.1.length ≤ maxFrame) : ∃ t, step s = .next t := by
  cases hr : s.env.resetLine with
  | true => exact ⟨_, step_of_resetLine hc hr⟩
  | false =>
    cases hs : s.sessions with
    | nil => rw [step_of_idle hc hr hs]; exact idleStep_answers s
    | cons top outer =>
      rw [step_of_session hc hr hs]
      exact h.sessionAction_answers hs fun hp => hf top outer ⟨hc, hr, hs, hp⟩

/-- The three outcomes of a step from a sound state, each with its cause. -/
theorem Inv.step_cases {s : State} (h : Inv s) :
    (step s = .refused .illegalConfig ∧ ¬ s.cfg.legal) ∨
    (step s = .refused .receiveTooLong ∧ ∃ top outer, AtPhase s .receive top outer ∧ maxFrame < s.env.drawReceive.1.length) ∨
    (∃ t, step s = .next t) := by
  by_cases hc : s.cfg.legal
  · by_cases hf : ∃ top outer, AtPhase s .receive top outer ∧ maxFrame < s.env.drawReceive.1.length
    · obtain ⟨top, outer, hat, hlong⟩ := hf
      exact .inr (.inl ⟨step_of_overlong hat hlong, top, outer, hat, hlong⟩)
    · exact .inr (.inr (h.step_answers hc fun top outer hat => Nat.not_lt.1 fun hlong => hf ⟨top, outer, hat, hlong⟩))
  · exact .inl ⟨step_of_illegal hc, hc⟩

/-- Settles O47: none of the outcomes of a step from a sound state is a fault. -/
theorem soundStatesNeverFault : Obligations.SoundStatesNeverFault := by
  intro s h f hfault
  rcases h.step_cases with ⟨hstep, -⟩ | ⟨hstep, -⟩ | ⟨t, hstep⟩ <;> rw [hstep] at hfault <;> cases hfault

/-- Settles O48: the causes of the two refusals, and the next state when neither cause is there. -/
theorem refusalsNameTheirCause : Obligations.RefusalsNameTheirCause := by
  intro s h
  constructor
  · intro r hr
    rcases h.step_cases with ⟨hstep, hc⟩ | ⟨hstep, top, outer, hat, hlong⟩ | ⟨t, hstep⟩ <;> rw [hstep] at hr <;> cases hr
    · exact .inl ⟨rfl, hc⟩
    · obtain ⟨f, fs, hq, hf⟩ := supplied_of_overlong hlong
      exact .inr ⟨rfl, top, outer, f, fs, hat, hq, hf⟩
  · intro hc hfits
    refine h.step_answers hc fun top outer hat => Nat.not_lt.1 fun hlong => ?_
    obtain ⟨f, fs, hq, hf⟩ := supplied_of_overlong hlong
    exact absurd (hfits f (by simp [hq])) (Nat.not_le.2 hf)

end Sys2Proof.Safety
end

section
/-! PROOFS. The host's operations one by one, and the invariant at the updates that several steps share. -/
namespace Sys2Proof.Machine

/-! ### The host's operations -/

@[simp] theorem State.hostOp_session (s : State) (r : Request) : s.hostOp (.session r) = s.openSession r := rfl
@[simp] theorem State.hostOp_cycleEnd (s : State) : s.hostOp .cycleEnd = s.cycleEnd := rfl
@[simp] theorem State.hostOp_countdownTick (s : State) : s.hostOp .countdownTick = s.countdownTick := rfl
@[simp] theorem State.hostOp_errSet (s : State) (mask : Half) : s.hostOp (.errSet mask) = s.errSet mask := rfl
@[simp] theorem State.hostOp_reset (s : State) : s.hostOp .reset = s.blockReset := rfl
@[simp] theorem State.hostOp_read (s : State) (r : HostReg) : s.hostOp (.read r) = s.answerHost (.value r (s.readReg r)) := rfl

end Sys2Proof.Machine

namespace Sys2Proof.Safety

open Sys2Proof.Machine

/-! ### The parts of the invariant -/

/-- R39 (b), R179: an accepted session is counted in `DEPTH`. -/
theorem counted_of_accepted {p : Phase} (h : accepted p = true) : counted p = true := by
  cases p with
  | enter | reject | done => cases h
  | _ => rfl

/-- R31: a sound context with its cursor moved inside the frame. -/
theorem ContextOk.moved {ctx : Context} (h : ContextOk ctx) {n : Nat} (hn : n ≤ ctx.rxLen) : ContextOk { ctx with cur := n } :=
  ⟨h.frame, h.len, hn⟩

/-- R170, R179: the innermost session changes its state. -/
theorem NestingOk.rephase {top : Session} {outer : List Session} (h : NestingOk (top :: outer)) {p : Phase}
    (hacc : accepted p = true → outer.length ≤ 1) (hrej : p = .reject → outer.length = 2) :
    NestingOk ({ top with phase := p } :: outer) := by
  obtain ⟨hwait, hlen, -, -⟩ := h
  exact ⟨hwait, hlen, hacc, hrej⟩

/-- R179: at most one session waits outside an accepted one. -/
theorem NestingOk.outer_le_one {top : Session} {outer : List Session} (h : NestingOk (top :: outer))
    (ha : accepted top.phase = true) : outer.length ≤ 1 := by
  obtain ⟨-, -, hacc, -⟩ := h
  exact hacc ha

/-- R172, R179: a session is rejected inside two others. -/
theorem NestingOk.outer_of_reject {top : Session} {outer : List Session} (h : NestingOk (top :: outer))
    (hp : top.phase = .reject) : outer.length = 2 := by
  obtain ⟨-, -, -, hrej⟩ := h
  exact hrej hp

/-! ### The invariant after an update -/

/-- The invariant speaks of no register but `DEPTH` and `TX_LEN`, nor of the configuration or the environment. -/
theorem Inv.of_eq {s t : State} (h : Inv s) (hs : t.sessions = s.sessions) (hx : t.ctxs = s.ctxs) (hd : t.depth = s.depth)
    (ht : t.tx = s.tx) (hl : t.txLen = s.txLen) : Inv t where
  depth := by rw [hd, hs]; exact h.depth
  nesting := by rw [hs]; exact h.nesting
  contexts := by rw [hx, hs]; exact h.contexts
  context := by rw [hx]; exact h.context
  outer := by rw [outerContexts, hs, hx]; exact h.outer
  cursor := by rw [InnerCursorOk, hs, hx]; exact h.cursor
  tx := ⟨by rw [ht]; exact h.tx.wf, by rw [ht]; exact h.tx.within, by rw [hl]; exact h.tx.len,
    by rw [hs, ht, hl]; exact h.tx.built⟩

/-- R39 (a): an idle block meets the invariant when its `tx` lies within bounds. -/
theorem Inv.of_idle {s : State} (hi : Safety.idle s) (wf : s.tx.wf) (within : ∀ c ∈ s.tx, c.1 < maxFrame)
    (len : s.txLen ≤ maxFrame) : Inv s := by
  obtain ⟨hs, hx, hd⟩ := hi
  exact {
    depth := by rw [hs, hd]; rfl
    nesting := by rw [hs]; trivial
    contexts := by rw [hs, hx]; rfl
    context := by rw [hx]; nofun
    outer := by rw [outerContexts, hs, hx]; nofun
    cursor := by rw [InnerCursorOk, hs]; nofun
    tx := ⟨wf, within, len, by rw [hs]; nofun⟩ }

/-- R36, R240: a reset, whatever it interrupts, leaves a state that meets the invariant. -/
theorem Inv.blockReset (s : State) : Inv s.blockReset :=
  .of_idle ⟨rfl, rfl, rfl⟩ Memory.wf_nil nofun (Nat.zero_le _)

theorem Inv.raise {s : State} (h : Inv s) (e : ErrorKind) : Inv (s.raise e) := h.of_eq rfl rfl rfl rfl rfl

theorem Inv.setRstCnt {s : State} (h : Inv s) (v : Byte) : Inv (s.setRstCnt v) := h.of_eq rfl rfl rfl rfl rfl

theorem Inv.setEnv {s : State} (h : Inv s) (e : Env) : Inv (s.setEnv e) := h.of_eq rfl rfl rfl rfl rfl

/-- R170: a session that is not decoding moves between two states without a context; TRANSMIT is entered by an encode only. -/
theorem Inv.setDepth_setPhase {s : State} (h : Inv s) {top : Session} {outer : List Session} (hs : s.sessions = top :: outer)
    {p : Phase} {d : Nat} (hd : d = outer.length + (counted p).toNat) (hfrom : decoding top.phase = false)
    (hto : decoding p = false) (hp : p ≠ .transmit) (hacc : accepted p = true → outer.length ≤ 1)
    (hrej : p = .reject → outer.length = 2) : Inv ((s.setDepth d).setPhase p) := by
  have hlen := h.contexts_cons hs
  have hsus := h.outer_cons hs
  rw [hfrom, ← hto] at hlen hsus
  exact .of_cons (State.setPhase_sessions_cons _ _ _ _ hs) ((h.nesting_cons hs).rephase hacc hrej) (by simpa using hd)
    (by simpa using hlen) (by simpa using h.context) (by simpa using hsus) (fun _ _ _ => .of_not_decoding hto)
    (by simpa using h.tx.wf) (by simpa using h.tx.within) (by simpa using h.tx.len) (fun ht => absurd ht hp)

/-- R173 to R175: an accepted session moves on, neither from nor to its decode. -/
theorem Inv.setPhase {s : State} (h : Inv s) {top : Session} {outer : List Session} (hs : s.sessions = top :: outer)
    {p : Phase} (hfrom : accepted top.phase = true) (hto : accepted p = true) (hdf : decoding top.phase = false)
    (hdt : decoding p = false) (hp : p ≠ .transmit) : Inv (s.setPhase p) := by
  have hd := h.depth_cons hs
  rw [counted_of_accepted hfrom, ← counted_of_accepted hto] at hd
  exact h.setDepth_setPhase (d := s.depth) hs hd hdf hdt hp (fun _ => (h.nesting_cons hs).outer_le_one hfrom)
    (fun hr => by simp [hr] at hto)

/-- R107 to R109: the invariant in the record loop, its cursor at `n`, from the sound context whose cursor was moved there. -/
theorem Inv.of_records {s t : State} (h : Inv s) {top : Session} {outer : List Session} {ctx : Context} {rest : List Context}
    {n : Nat} (hx : s.ctxs = ctx :: rest) (ht : t.sessions = top :: outer) (hp : top.phase = .decode .records)
    (hn : NestingOk (top :: outer)) (htx : t.ctxs = { ctx with cur := n } :: rest) (hd : t.depth = outer.length + 1)
    (hlen : rest.length = outer.length) (hsus : ∀ c ∈ rest, SuspendedOk c) (h2 : 2 ≤ n) (hcur : n ≤ ctx.rxLen)
    (hm : t.tx = s.tx) (hl : t.txLen = s.txLen) : Inv t := by
  have hctx : ∀ c ∈ ctx :: rest, ContextOk c := by rw [← hx]; exact h.context
  obtain ⟨hin, hout⟩ := List.forall_mem_cons.1 hctx
  refine .of_cons ht hn (by simp [hd, hp]) (by simp [htx, hp, hlen]) ?_ (by simpa [htx, hp] using hsus) ?_ ?_ ?_ ?_ ?_
  · rw [htx]; exact List.forall_mem_cons.2 ⟨hin.moved hcur, hout⟩
  · rw [htx, hp]; rintro _ _ ⟨⟩; exact ⟨nofun, fun _ => h2⟩
  · rw [hm]; exact h.tx.wf
  · rw [hm]; exact h.tx.within
  · rw [hl]; exact h.tx.len
  · rw [hp]; nofun

end Sys2Proof.Safety
end

section
/-! PROOFS. Every step keeps the invariant: one lemma for each kind of step, then the step by its kinds (`step_moves`). -/
namespace Sys2Proof.Safety

open Sys2Proof.Machine

section Steps
variable {s : State} {top : Session} {outer : List Session}

/-! ### The host and the Session Guard -/

/-- R202: an operation of the host, at the idle block. -/
theorem Inv.hostOp (h : Inv s) (hs : s.sessions = []) (op : HostOp) : Inv (s.hostOp op) := by
  obtain ⟨-, hx, hd⟩ := h.idle hs
  cases op with
  | session r =>
    exact .of_cons (top := { phase := .enter, request := r }) (outer := []) (by simp [hs]) ⟨nofun, by simp, by simp, nofun⟩
      (by simp [hd]) (by simp [hx]) h.context (by simp [hx]) (fun _ _ _ => .of_not_decoding rfl) h.tx.wf h.tx.within h.tx.len
      nofun
  | reset => exact .blockReset s
  | _ => exact h.of_eq (by simp) (by simp) (by simp) (by simp) (by simp)

/-- R171, R172: the third entry is rejected and no other. -/
theorem Inv.entered (h : Inv s) (hs : s.sessions = top :: outer) (hp : top.phase = .enter) :
    Inv ((s.setDepth (s.depth + 1)).setPhase (if s.depth + 1 > maxDepth then .reject else .encode)) := by
  have hd : s.depth = outer.length := by simpa [hp] using h.depth_cons hs
  have hfrom : decoding top.phase = false := by rw [hp]; rfl
  obtain ⟨-, hlen, -, -⟩ := h.nesting_cons hs
  by_cases hdeep : s.depth + 1 > 2
  · rw [if_pos (show s.depth + 1 > maxDepth from hdeep)]
    exact h.setDepth_setPhase hs (by simp [hd]) hfrom rfl nofun nofun (fun _ => by omega)
  · rw [if_neg (show ¬ s.depth + 1 > maxDepth from hdeep)]
    exact h.setDepth_setPhase hs (by simp [hd]) hfrom rfl nofun (fun _ => by omega) nofun

/-- R172, R177: REJECT and EXIT take ENTER's increment back. -/
theorem Inv.decremented (h : Inv s) (hs : s.sessions = top :: outer) (hc : counted top.phase = true) (hd : decoding top.phase = false) :
    Inv ((s.setDepth (s.depth - 1)).setPhase .done) :=
  h.setDepth_setPhase hs (by simp [h.depth_cons hs, hc]) hd rfl nofun nofun nofun

/-- R153, R173: a frame of 3 to 32 bytes is built, and the session goes to TRANSMIT. -/
theorem Inv.buildFrame (h : Inv s) (hs : s.sessions = top :: outer) (hp : top.phase = .encode) {record : List Byte} {len : Nat}
    (hl : len = 2 + record.length) (h3 : 3 ≤ len) (h32 : len ≤ maxFrame) : Inv (s.buildFrame record len) := by
  have hn := h.nesting_cons hs
  have hout := hn.outer_le_one (by rw [hp]; rfl)
  refine .of_cons (State.buildFrame_sessions_cons _ _ _ _ _ hs) (hn.rephase (fun _ => hout) nofun)
    (by simpa [hp] using h.depth_cons hs) (by simpa [hp] using h.contexts_cons hs) (by simpa using h.context)
    (by simpa [hp] using h.outer_cons hs) (fun _ _ _ => .of_not_decoding rfl) ?_ ?_ (by simpa using h32)
    (fun _ => ⟨by simpa [minFrame] using h3, fun a ha => ?_⟩)
  · rw [State.buildFrame_tx]; exact Memory.wf_writeBytes h.tx.wf _ _
  · rw [State.buildFrame_tx]
    intro c hc
    rcases Memory.mem_writeBytes hc with ⟨-, hlt⟩ | hc
    · rw [List.length_append, State.txHeader_length] at hlt; omega
    · exact h.tx.within c hc
  · rw [State.buildFrame_txLen] at ha
    rw [State.buildFrame_read, if_pos (by omega)]
    simp [State.txHeader_length]; omega

/-- R174: the frame is handed over, and the session polls. -/
theorem Inv.transmitted (h : Inv s) (hs : s.sessions = top :: outer) (hp : top.phase = .transmit) (frame : List Byte) :
    Inv (s.transmitted frame) := by
  have hpoll {u : State} (hu : Inv u) (hus : u.sessions = top :: outer) : Inv (u.setPhase .poll) :=
    hu.setPhase hus (by rw [hp]; rfl) rfl (by rw [hp]; rfl) rfl nofun
  rw [State.transmitted]
  split
  · exact hpoll ((h.setEnv _).raise _) hs
  · exact hpoll (h.setEnv _) hs

/-- R175: POLL leads to RECEIVE or to EXIT. -/
theorem Inv.polled (h : Inv s) (hs : s.sessions = top :: outer) (hp : top.phase = .poll) (ready : Bool) :
    Inv (s.setPhase (if ready then .receive else .exit)) := by
  have hto {p : Phase} (hacc : accepted p = true) (hd : decoding p = false) (hne : p ≠ .transmit) : Inv (s.setPhase p) :=
    h.setPhase hs (by rw [hp]; rfl) hacc (by rw [hp]; rfl) hd hne
  cases ready with
  | true => exact hto rfl rfl nofun
  | false => exact hto rfl rfl nofun

/-- R175, R195, R100: a frame of at most 32 bytes is received, and its context pushed before the gates. -/
theorem Inv.received (h : Inv s) (hs : s.sessions = top :: outer) (hp : top.phase = .receive) {frame : List Byte}
    (hl : frame.length ≤ maxFrame) : Inv ((s.pushFrame frame).setPhase (.decode .gates)) := by
  have hn := h.nesting_cons hs
  have hout := hn.outer_le_one (by rw [hp]; rfl)
  refine .of_cons (State.setPhase_sessions_cons _ _ _ _ hs) (hn.rephase (fun _ => hout) nofun)
    (by simpa [hp] using h.depth_cons hs) (by simpa [hp] using h.contexts_cons hs) ?_ (by simpa [hp] using h.outer_cons hs) ?_
    (by simpa using h.tx.wf) (by simpa using h.tx.within) (by simpa using h.tx.len) nofun
  · rw [State.setPhase_ctxs, State.pushFrame_ctxs]
    exact List.forall_mem_cons.2 ⟨⟨.ofBytes frame, hl, Nat.zero_le _⟩, h.context⟩
  · rw [State.setPhase_ctxs, State.pushFrame_ctxs]
    rintro _ _ ⟨⟩
    exact ⟨fun _ => rfl, nofun⟩

/-- R170: the outermost session is done, and the block is idle. -/
theorem Inv.doneHost (h : Inv s) (hs : s.sessions = [top]) (hp : top.phase = .done) : Inv (s.setSessions []) := by
  have hx : s.ctxs = [] := List.length_eq_zero_iff.1 (by simpa [hp] using h.contexts_cons hs)
  have hd : s.depth = 0 := by simpa [hp] using h.depth_cons hs
  exact .of_idle ⟨rfl, hx, hd⟩ h.tx.wf h.tx.within h.tx.len

/-- R170, R123: a nested session is done, and the decode outside it goes on after its PING, whose two bytes are in the frame. -/
theorem Inv.donePing {next : Session} (h : Inv s) (hs : s.sessions = top :: next :: outer) (hp : top.phase = .done) :
    Inv ((s.setSessions (next :: outer)).advanceCur 2) := by
  obtain ⟨hwait, hlen, -, -⟩ := h.nesting_cons hs
  obtain ⟨hnext, hwait⟩ := List.forall_mem_cons.1 hwait
  obtain ⟨ctx, rest, hx⟩ := List.exists_cons_of_length_eq_add_one
    (show s.ctxs.length = outer.length + 1 by simpa [hp] using h.contexts_cons hs)
  have hsus : ∀ c ∈ ctx :: rest, SuspendedOk c := by rw [← hx]; simpa [hp] using h.outer_cons hs
  obtain ⟨hctx, hrest⟩ := List.forall_mem_cons.1 hsus
  have hout : outer.length ≤ 1 := by simpa using hlen
  exact h.of_records hx (by simp) hnext ⟨hwait, by omega, fun _ => hout, by simp [hnext]⟩
    (State.advanceCur_ctxs_cons _ _ _ _ hx) (by simpa [hp] using h.depth_cons hs)
    (by simpa [hp, hx] using h.contexts_cons hs) hrest (by omega) hctx.echo (by simp) (by simp)

/-! ### The decode -/

/-- R110, R219: a decode ends; its context is popped and its session goes to EXIT. -/
theorem Inv.endDecode (h : Inv s) (hs : s.sessions = top :: outer) (hd : decoding top.phase = true)
    (ha : accepted top.phase = true) : Inv s.endDecode := by
  have hn := h.nesting_cons hs
  have hout := hn.outer_le_one ha
  exact .of_cons (State.endDecode_sessions_cons _ _ _ hs) (hn.rephase (fun _ => hout) nofun)
    (by simpa [counted_of_accepted ha] using h.depth_cons hs) (by simp [hd, h.contexts_cons hs])
    (by simpa using fun c hc => h.context c (List.mem_of_mem_tail hc)) (by simpa [hd] using h.outer_cons hs)
    (fun _ _ _ => .of_not_decoding rfl) (by simpa using h.tx.wf) (by simpa using h.tx.within) (by simpa using h.tx.len) nofun

section Decode
variable {ctx : Context} {rest : List Context}

/-- R105 to R107: a frame passed its gates, and the cursor goes to the first record. -/
theorem Inv.acceptFrame (h : Inv s) (hs : s.sessions = top :: outer) (hp : top.phase = .decode .gates) (hx : s.ctxs = ctx :: rest)
    (hl : minFrame ≤ ctx.rxLen) (sq : Byte) : Inv (s.acceptFrame sq) := by
  have hn := h.nesting_cons hs
  have hout := hn.outer_le_one (by rw [hp]; rfl)
  have h3 : 3 ≤ ctx.rxLen := hl
  exact h.of_records hx (State.acceptFrame_sessions_cons _ _ _ _ hs) rfl (hn.rephase (fun _ => hout) nofun)
    (State.acceptFrame_ctxs_cons _ _ _ _ hx) (by simpa [hp] using h.depth_cons hs)
    (by simpa [hp, hx] using h.contexts_cons hs) (by simpa [hp, hx] using h.outer_cons hs) (Nat.le_refl 2) (by omega)
    (by simp) (by simp)

/-- R107: the cursor of a decode is in the command stream. -/
theorem Inv.two_le_cur (h : Inv s) (hs : s.sessions = top :: outer) (hp : top.phase = .decode .records)
    (hx : s.ctxs = ctx :: rest) : 2 ≤ ctx.cur := by
  obtain ⟨-, hrec⟩ := h.cursor top outer ctx rest hs hx
  exact hrec hp

/-- R122, R124, R126: the decode goes on after a record that was in the frame. -/
theorem Inv.advanceCur (h : Inv s) (hs : s.sessions = top :: outer) (hp : top.phase = .decode .records)
    (hx : s.ctxs = ctx :: rest) {n : Nat} (hc : ctx.cur + n ≤ ctx.rxLen) : Inv (s.advanceCur n) := by
  have h2 := h.two_le_cur hs hp hx
  exact h.of_records hx (by simpa using hs) hp (h.nesting_cons hs) (State.advanceCur_ctxs_cons _ _ _ _ hx)
    (by simpa [hp] using h.depth_cons hs) (by simpa [hp, hx] using h.contexts_cons hs)
    (by simpa [hp, hx] using h.outer_cons hs) (by omega) hc (by simp) (by simp)

/-- R123: a PING opens a session, and its own decode waits at it. -/
theorem Inv.openSession (h : Inv s) (hs : s.sessions = top :: outer) (hp : top.phase = .decode .records)
    (hx : s.ctxs = ctx :: rest) (hc : ctx.cur + 2 ≤ ctx.rxLen) (ho : ctx.byteAt ctx.cur = some opcPing) (r : Request) :
    Inv (s.openSession r) := by
  have hn := h.nesting_cons hs
  have hout := hn.outer_le_one (by rw [hp]; rfl)
  obtain ⟨hwait, -, -, -⟩ := hn
  have hrest : ∀ c ∈ rest, SuspendedOk c := by simpa [hp, hx] using h.outer_cons hs
  refine .of_cons (top := { phase := .enter, request := r }) (outer := top :: outer) (by simp [hs])
    ⟨List.forall_mem_cons.2 ⟨hp, hwait⟩, by simpa using hout, nofun, nofun⟩ (by simpa [hp] using h.depth_cons hs)
    (by simpa [hp] using h.contexts_cons hs) h.context ?_ (fun _ _ _ => .of_not_decoding rfl) h.tx.wf h.tx.within h.tx.len nofun
  show ∀ c ∈ s.ctxs, SuspendedOk c
  rw [hx]
  exact List.forall_mem_cons.2 ⟨⟨h.two_le_cur hs hp hx, ho, hc⟩, hrest⟩

end Decode
end Steps

/-! ### The step -/

/-- R39: each kind of step keeps the invariant. -/
theorem Inv.moves {s t : State} (h : Inv s) (hm : Moves s t) : Inv t := by
  have hend {u : State} (hu : Inv u) {top : Session} {outer : List Session} {d : DecodeStage} (hus : u.sessions = top :: outer)
      (hp : top.phase = .decode d) : Inv u.endDecode := hu.endDecode hus (by rw [hp]; rfl) (by rw [hp]; rfl)
  cases hm with
  | reset => exact .blockReset s
  | idle => exact h
  | host _ hs op rest _ => exact (h.setEnv { s.env with hostOps := rest }).hostOp hs op
  | enter _ top outer hs hp => exact h.entered hs hp
  | reject _ top outer hs hp => exact (h.raise .depth).decremented hs (by rw [hp]; rfl) (by rw [hp]; rfl)
  | built _ top outer hs hp record len hl h3 h32 => exact h.buildFrame hs hp hl h3 h32
  | aborted _ top outer hs hp e => exact (h.raise e).setPhase hs (by rw [hp]; rfl) rfl (by rw [hp]; rfl) rfl nofun
  | transmit _ top outer hs hp _ => exact h.transmitted hs hp _
  | poll _ top outer hs hp => exact (h.setEnv s.env.drawReady.2).polled hs hp _
  | receive _ top outer hs hp hl => exact (h.setEnv s.env.drawReceive.2).received hs hp hl
  | gateSilent _ top outer hs hp => exact hend h hs hp
  | gateVersion _ top outer hs hp => exact hend (h.raise _) hs hp
  | accept _ top outer hs hp ctx rest hx hl b0 _ _ _ sq _ => exact h.acceptFrame hs hp hx hl sq
  | frameEnd _ top outer hs hp => exact hend h hs hp
  | nop _ top outer hs hp ctx rest hx hc => exact h.advanceCur hs hp hx hc
  | unknown _ top outer hs hp => exact hend (h.raise _) hs hp
  | truncated _ top outer hs hp => exact hend h hs hp
  | truncatedPong _ top outer hs hp => exact hend (h.raise _) hs hp
  | ping _ top outer hs hp ctx rest hx hc ho => exact h.openSession hs hp hx hc ho _
  | pong _ top outer hs hp ctx rest hx hc _ => exact (h.raise .unexpectedCmd).advanceCur hs hp hx hc
  | countdown _ top outer hs hp ctx rest hx hc _ count _ => exact (h.setRstCnt count).advanceCur hs hp hx hc
  | exit _ top outer hs hp => exact h.decremented hs (by rw [hp]; rfl) (by rw [hp]; rfl)
  | doneHost _ top hs hp => exact h.doneHost hs hp
  | donePing _ top next outer hs hp => exact h.donePing hs hp

/-- Settles O46: a step is one of the kinds of `step_moves`, and each keeps the invariant. -/
theorem stepKeepsInvariant : Obligations.StepKeepsInvariant := by
  intro s t h hstep
  obtain ⟨-, hm⟩ := step_moves hstep
  exact h.moves hm

/-- Settles O45: the state after reset is idle and lists no byte of `tx`. -/
theorem resetMeetsInvariant : Obligations.ResetMeetsInvariant :=
  Inv.of_idle ⟨rfl, rfl, rfl⟩ Memory.wf_nil nofun (Nat.zero_le _)

end Sys2Proof.Safety
end

section
/-! PROOFS. Who writes each register (R38): each kind of step leaves a register alone, or is one of its writers. -/
namespace Sys2Proof.Safety

open Sys2Proof.Machine

/-- R240, R242: the reset line, or a RESET of the host, is what the step takes next. -/
theorem resetNext_of_host {s : State} (hs : s.sessions = []) {rest : List HostOp} (ho : s.env.hostOps = .reset :: rest) :
    resetNext s := .inr ⟨hs, rest, ho⟩

/-- Settles O54: no update of any kind of step touches the configuration. -/
theorem configNeverChanges : Obligations.ConfigNeverChanges := by
  intro s t h
  obtain ⟨-, hm⟩ := step_moves h
  cases hm with
  | host hr hs op rest ho => cases op <;> simp
  | _ => simp

/-- Settles O49: the writers are reset and the acceptance of a frame. -/
theorem lastRxWriters : Obligations.LastRxWriters := by
  intro s t h
  obtain ⟨hc, hm⟩ := step_moves h
  cases hm with
  | reset hr => exact .inr (.inl ⟨.inl hr, rfl⟩)
  | host hr hs op rest ho =>
    cases op with
    | reset => exact .inr (.inl ⟨resetNext_of_host hs ho, rfl⟩)
    | _ => exact .inl (by simp)
  | accept hr top outer hs hp ctx rest hx hl b0 h0 ha hv sq hq =>
    exact .inr (.inr ⟨top, outer, ctx, rest, b0, ⟨hc, hr, hs, hp⟩, hx, hl, h0, (addressedHere_iff _ _).1 ha, hv,
      by simpa using hq, State.acceptFrame_sessions_cons _ _ _ _ hs⟩)
  | _ => exact .inl (by simp)

/-- Settles O50: the writers are reset and an encode that builds its frame. -/
theorem lastTxWriters : Obligations.LastTxWriters := by
  intro s t h
  obtain ⟨hc, hm⟩ := step_moves h
  cases hm with
  | reset hr => exact .inr (.inl ⟨.inl hr, rfl⟩)
  | host hr hs op rest ho =>
    cases op with
    | reset => exact .inr (.inl ⟨resetNext_of_host hs ho, rfl⟩)
    | _ => exact .inl (by simp)
  | built hr top outer hs hp record len =>
    exact .inr (.inr ⟨top, outer, ⟨hc, hr, hs, hp⟩, State.buildFrame_lastTx _ _ _, State.buildFrame_sessions_cons _ _ _ _ _ hs⟩)
  | _ => exact .inl (by simp)

/-- R14: the bits of a mask stay when another is ORed in. -/
theorem and_or_self_left (x y : Half) : x &&& (x ||| y) = x := by
  ext i hi
  simp only [BitVec.getElem_and, BitVec.getElem_or]
  cases x[i] <;> rfl

/-- Settles O51: every other writer of `ERR_CUR` ORs a mask in. -/
theorem errorBitsStay : Obligations.ErrorBitsStay := by
  intro s t h
  obtain ⟨-, hm⟩ := step_moves h
  cases hm with
  | reset hr => exact .inr (.inl (.inl hr))
  | host hr hs op rest ho =>
    cases op with
    | reset => exact .inr (.inl (resetNext_of_host hs ho))
    | cycleEnd => exact .inr (.inr ⟨hr, hs, rest, ho⟩)
    | _ => exact .inl (by simp [and_or_self_left])
  | accept => exact .inl (by rw [State.acceptFrame_errCur]; split <;> simp [and_or_self_left])
  | transmit => exact .inl (by rw [State.transmitted_errCur]; split <;> simp [and_or_self_left])
  | _ => exact .inl (by simp [and_or_self_left])

/-- Settles O52: the writers are reset and CYCLE_END. -/
theorem errPrevWriters : Obligations.ErrPrevWriters := by
  intro s t h
  obtain ⟨-, hm⟩ := step_moves h
  cases hm with
  | reset hr => exact .inr (.inl ⟨.inl hr, rfl⟩)
  | host hr hs op rest ho =>
    cases op with
    | reset => exact .inr (.inl ⟨resetNext_of_host hs ho, rfl⟩)
    | cycleEnd => exact .inr (.inr ⟨⟨hr, hs, rest, ho⟩, rfl⟩)
    | _ => exact .inl (by simp)
  | _ => exact .inl (by simp)

/-- Settles O53: the writers are reset, COUNTDOWN_TICK of a nonzero countdown, and a whole RESET record. -/
theorem countdownWriters : Obligations.CountdownWriters := by
  intro s t h
  obtain ⟨hc, hm⟩ := step_moves h
  cases hm with
  | reset hr => exact .inr (.inl ⟨.inl hr, rfl⟩)
  | host hr hs op rest ho =>
    cases op with
    | reset => exact .inr (.inl ⟨resetNext_of_host hs ho, rfl⟩)
    | countdownTick =>
      by_cases hz : s.rstCnt = 0
      · exact .inl (by simp [hz])
      · exact .inr (.inr (.inl ⟨⟨hr, hs, rest, ho⟩, hz, (State.countdownTick_rstCnt _).trans (if_neg hz)⟩))
    | _ => exact .inl (by simp)
  | countdown hr top outer hs hp ctx rest hx _ hop count ha =>
    exact .inr (.inr (.inr ⟨top, outer, ctx, rest, ⟨hc, hr, hs, hp⟩, hx, hop, by simpa using ha⟩))
  | _ => exact .inl (by simp)

/-! ### The context stack -/

/-- R30, R31, R51: the frame of a context stays, and its cursor does not go back. -/
def Forward (a b : Context) : Prop := b.rx = a.rx ∧ b.rxLen = a.rxLen ∧ a.cur ≤ b.cur

theorem forall₂_forward_of_eq {l l' : List Context} (h : l' = l) : List.Forall₂ Forward l l' :=
  h ▸ List.forall₂_same.2 fun _ _ => ⟨rfl, rfl, Nat.le_refl _⟩

/-- R122, R123: advancing the innermost cursor of a state whose stack is that of `s`. -/
theorem advanceCur_forward {s u : State} (hx : u.ctxs = s.ctxs) (n : Nat) :
    List.Forall₂ Forward s.ctxs (u.advanceCur n).ctxs := by
  rw [State.advanceCur_ctxs, hx]
  cases s.ctxs with
  | nil => exact .nil
  | cons ctx rest => exact .cons ⟨rfl, rfl, Nat.le_add_right _ _⟩ (forall₂_forward_of_eq rfl)

/-- R107: an accepted frame's cursor goes from the start of the frame to its first record. -/
theorem Inv.acceptFrame_forward {s : State} (h : Inv s) {top : Session} {outer : List Session} (hs : s.sessions = top :: outer)
    (hp : top.phase = .decode .gates) {ctx : Context} {rest : List Context} (hx : s.ctxs = ctx :: rest) (sq : Byte) :
    List.Forall₂ Forward s.ctxs (s.acceptFrame sq).ctxs := by
  obtain ⟨hgates, -⟩ := h.cursor top outer ctx rest hs hx
  have h0 : ctx.cur ≤ 2 := by rw [hgates hp]; exact Nat.zero_le 2
  rw [State.acceptFrame_ctxs_cons _ _ _ _ hx, hx]
  exact .cons ⟨rfl, rfl, h0⟩ (forall₂_forward_of_eq rfl)

/-- Settles O55: RECEIVE pushes, the end of a decode pops, reset drops, and every other step keeps the stack or moves the
innermost cursor forward. -/
theorem receiveFramesNeverWritten : Obligations.ReceiveFramesNeverWritten := by
  intro s t h hstep
  obtain ⟨hc, hm⟩ := step_moves hstep
  cases hm with
  | reset hr => exact .inr (.inr (.inr ⟨rfl, .inl hr⟩))
  | host hr hs op rest ho =>
    cases op with
    | reset => exact .inr (.inr (.inr ⟨rfl, resetNext_of_host hs ho⟩))
    | _ => exact .inl (forall₂_forward_of_eq (by simp))
  | receive hr top outer hs hp => exact .inr (.inl ⟨_, State.setPhase_ctxs _ _, rfl, top, outer, hc, hr, hs, hp⟩)
  | gateSilent hr top outer hs hp | gateVersion hr top outer hs hp | frameEnd hr top outer hs hp | unknown hr top outer hs hp
  | truncated hr top outer hs hp | truncatedPong hr top outer hs hp =>
    exact .inr (.inr (.inl ⟨by simp, top, outer, _, hc, hr, hs, hp⟩))
  | accept _ top outer hs hp ctx rest hx _ _ _ _ _ sq => exact .inl (h.acceptFrame_forward hs hp hx sq)
  | nop | pong | countdown | donePing => exact .inl (advanceCur_forward (by simp) _)
  | _ => exact .inl (forall₂_forward_of_eq (by simp))

end Sys2Proof.Safety
end

section
/-! PROOFS. What the records leave unchanged: the received ones (R122 to R127) and the transmit ones (R141). -/
namespace Sys2Proof.Machine

open Sys2Proof.Safety

/-! ### Received records -/

/-- R15: moving the innermost cursor writes no receive frame. -/
@[simp] theorem State.map_frameOf_advanceCur (s : State) (n : Nat) : (s.advanceCur n).ctxs.map frameOf = s.ctxs.map frameOf := by
  rw [State.advanceCur_ctxs]
  cases s.ctxs <;> rfl

/-- Settles O20: each record by its meaning, whole and truncated. -/
theorem receivedRecordFrame : Obligations.ReceivedRecordFrame := by
  intro i s t hi h
  cases i with
  | nop => cases h; simp
  | statusRx => cases h; simp [List.tail_suffix]
  | unknownRx op => cases h; simp [List.tail_suffix]
  | ping echo =>
    cases echo with
    | none => cases h; simp [List.tail_suffix]
    | some e => cases h; simp
  | pongRx echo =>
    cases echo with
    | none => cases h; simp [List.tail_suffix]
    | some e => cases h; simp
  | reset count =>
    cases count with
    | none => cases h; simp [List.tail_suffix]
    | some n => cases h; simp
  | statusTx | pongTx | unsupportedTx => cases hi

/-! ### Transmit records -/

/-- R141, R151 to R153: a transmit record builds its frame, its length that of header and record, or aborts. -/
theorem exec_transmit_cases {i : Instr} (hi : i.isReceived = false) (s : State) :
    exec i s = .next (s.buildFrame (encode s.cfg s.anyError i) (2 + (encode s.cfg s.anyError i).length)) ∨
    (∃ e, exec i s = .next (s.abortEncode e)) := by
  cases i with
  | statusTx p => exact .inl (statusLength_encode s.cfg s.anyError p ▸ execStatusTx_builds p s)
  | pongTx data =>
    by_cases hl : 3 + data.length ≤ maxFrame
    · have hlen : 2 + (encode s.cfg s.anyError (.pongTx data)).length = 3 + data.length := by simp [encode]; omega
      exact .inl (hlen ▸ execPongTx_builds data s hl)
    · exact .inr ⟨_, execPongTx_aborts data s (Nat.not_le.1 hl)⟩
  | unsupportedTx cmd => exact .inr ⟨_, rfl⟩
  | nop | statusRx | ping | pongRx | reset | unknownRx => cases hi

/-- Settles O25: a frame built writes `tx` below its length, and an abort writes none of it. -/
theorem encodeFrame : Obligations.EncodeFrame := by
  intro i s t hi h
  rcases exec_transmit_cases hi s with hbuilt | ⟨e, habort⟩
  · rw [hbuilt] at h
    cases h
    have hbeyond : ∀ a, 2 + (encode s.cfg s.anyError i).length ≤ a →
        (s.buildFrame (encode s.cfg s.anyError i) (2 + (encode s.cfg s.anyError i).length)).tx.read a = s.tx.read a :=
      fun a ha => by rw [State.buildFrame_read, if_neg (Nat.not_lt.2 ha)]
    simpa [State.anyError] using hbeyond
  · rw [habort] at h
    cases h
    simp

end Sys2Proof.Machine
end

section
/-! PROOFS. TRANSMIT, the host's ERR_SET and register reads, and reset: the exact states they answer. -/
namespace Sys2Proof.Machine

open Sys2Proof.Safety

/-! ### TRANSMIT -/

/-- R170: a change of the innermost session's state is a change of the session stack only. -/
theorem State.setPhase_eq {s : State} {top : Session} {outer : List Session} (hs : s.sessions = top :: outer) (p : Phase) :
    s.setPhase p = s.setSessions ({ top with phase := p } :: outer) := by
  rw [State.setPhase]
  simp only [hs]

/-- R174, R193: everything a transmission changes. -/
theorem State.transmitted_eq {s : State} {top : Session} {outer : List Session} (hs : s.sessions = top :: outer)
    (frame : List Byte) : s.transmitted frame = { s with
      env := { s.env.drawTransmit.2 with sent := s.env.sent ++ [frame] }
      errCur := if s.env.drawTransmit.1 = .fail then s.errCur ||| errorMask s.cfg .cannotDeliver else s.errCur
      sessions := { top with phase := .poll } :: outer } := by
  rw [State.transmitted, ← s.env.drawTransmit_sent]
  by_cases hf : s.env.drawTransmit.1 = .fail
  · rw [if_pos hf, if_pos hf]; exact State.setPhase_eq (by exact hs) _
  · rw [if_neg hf, if_neg hf]; exact State.setPhase_eq (by exact hs) _

/-- R193 (decision D19): the answer to `Transmit` is the next one supplied. -/
theorem Env.drawTransmit_of_supplied {e : Env} {a : TransmitAnswer} {as : List TransmitAnswer} (h : e.transmitAnswers = a :: as) :
    e.drawTransmit = (a, { e with transmitAnswers := as }) := by
  rw [Env.drawTransmit]
  simp only [h]

/-- R174: the step at TRANSMIT, for a frame within `tx`. -/
theorem step_of_transmit {s : State} {top : Session} {outer : List Session} (h : AtPhase s .transmit top outer)
    (hl : s.txLen ≤ maxFrame) : step s = .next (s.transmitted s.txFrame) := by
  rw [step_of_session h.legal h.noReset h.sessions, sessionAction, h.phase]
  exact if_neg (Nat.not_lt.2 hl)

/-- Settles O33: the frame handed over is `State.txFrame`. -/
theorem transmitHandsOverTheFrame : Obligations.TransmitHandsOverTheFrame := by
  intro s top outer h hl
  refine ⟨s.transmitted s.txFrame, s.txFrame, step_of_transmit h hl, State.transmitted_eq h.sessions _, s.length_txFrame,
    fun a ha => s.getElem?_txFrame ha, fun a b hb => State.txByte_of_read hb, fun a as ha => ?_⟩
  rw [State.transmitted_env, Env.drawTransmit_of_supplied ha]
  exact ⟨rfl, rfl⟩

/-! ### Operations of the host -/

/-- R202: the idle block starts the first operation issued. -/
theorem step_of_hostOp {s : State} (hc : s.cfg.legal) (hr : s.env.resetLine = false) (hs : s.sessions = []) {op : HostOp}
    {ops : List HostOp} (ho : s.env.hostOps = op :: ops) :
    step s = .next ((s.setEnv { s.env with hostOps := ops }).hostOp op) := by
  rw [step_of_idle hc hr hs, idleStep]
  simp only [ho]

/-- Settles O41: the operation issued is started, and each register is read by its own clause. -/
theorem errSetAndRegisterReads : Obligations.ErrSetAndRegisterReads := by
  intro s ops hc hr hs
  refine ⟨fun mask ho => step_of_hostOp hc hr hs ho, fun r ho => ⟨s.readReg r, step_of_hostOp hc hr hs ho, ?_⟩⟩
  cases r <;> rfl

/-! ### Reset -/

/-- R240, R242: the step that takes a reset. Before a RESET of the host is served, it is taken from the operations issued. -/
theorem step_of_resetNext {s : State} (hc : s.cfg.legal) (h : resetNext s) :
    ∃ ops, step s = .next (s.setEnv { s.env with hostOps := ops }).blockReset := by
  cases hr : s.env.resetLine with
  | true => exact ⟨s.env.hostOps, step_of_resetLine hc hr⟩
  | false =>
    rcases h with hline | ⟨hs, ops, ho⟩
    · rw [hr] at hline; cases hline
    · exact ⟨ops, step_of_hostOp hc hr hs ho⟩

/-- R36 (log entry 2): a byte of `tx` that is not listed is a free value. -/
theorem State.txByte_of_nil {s : State} (h : s.tx = []) (a : Nat) : s.txByte a = Config.freeTx s.env.resets a := by
  rw [State.txByte, h, Memory.read_nil]

/-- Settles O42: whatever takes it, the reset is `State.blockReset`. -/
theorem resetAbandonsEverything : Obligations.ResetAbandonsEverything := by
  intro s hc h
  obtain ⟨ops, hstep⟩ := step_of_resetNext hc h
  exact ⟨_, hstep, rfl, rfl, rfl, rfl, rfl, rfl, rfl, rfl, rfl, rfl, rfl, rfl, State.txByte_of_nil rfl⟩

/-- Settles O43: the fields of `State.reset`, and the default configuration is legal. -/
theorem resetValues : Obligations.ResetValues :=
  ⟨rfl, rfl, rfl, rfl, rfl, rfl, rfl, rfl, rfl, State.txByte_of_nil rfl, rfl, rfl, by decide, rfl⟩

end Sys2Proof.Machine
end

section
/-! PROOFS. The header byte (R43), the frame a STATUS builds (R142 to R147), and the steps at EXIT and DONE (R170, R177). -/
namespace Sys2Proof

/-! ### The header byte -/

/-- R43: a byte is the header byte of its two fields, which are all its bits. -/
theorem headerByte_of_fields (b : Byte) : headerByte (headerVersion b) (headerId b) = b := by
  ext i hi
  simp only [headerByte, headerVersion, headerId, BitVec.getElem_or, BitVec.truncate_eq_setWidth, BitVec.getElem_shiftLeft,
    BitVec.getElem_setWidth, BitVec.getLsbD_extractLsb', Nat.zero_add]
  by_cases h : i < 5
  · simp [h, BitVec.getLsbD_eq_getElem hi]
  · have hbit : 5 + (i - 5) = i := by omega
    have hwidth : i - 5 < 3 := by omega
    simp [h, hbit, hwidth, BitVec.getLsbD_eq_getElem hi]

/-- Settles O7: the fields read from a header byte are those it was made from, and the other way round. -/
theorem headerByteFields : Obligations.HeaderByteFields :=
  ⟨fun v i => ⟨rfl, headerVersion_headerByte v i, headerId_headerByte v i⟩, fun b => ⟨rfl, rfl, headerByte_of_fields b⟩⟩

end Sys2Proof

namespace Sys2Proof.Machine

open Sys2Proof.Safety

/-! ### The frame of a STATUS -/

/-- Settles O21: a STATUS builds the frame of its header and record, and `statusBytes_statusWire` gives the payload field by
field; the bits it tests are the statement's by definition (`mergeErrorBit`, `statusBit`). -/
theorem statusBuildsItsFrame : Obligations.StatusBuildsItsFrame := by
  intro s p top outer hs errs sw
  refine ⟨_, execStatusTx_builds p s, ?_, State.buildFrame_lastTx _ _ _, State.buildFrame_sessions_cons _ _ _ _ _ hs,
    State.buildFrame_errCur _ _ _⟩
  rw [State.buildFrame_txLen, State.buildFrame_bytes _ _ _ (statusLength_encode s.cfg s.anyError p), encode,
    statusBytes_statusWire]
  rfl

/-! ### EXIT and DONE -/

/-- R170: the step of a session at EXIT. -/
theorem step_of_exit {s : State} {top : Session} {outer : List Session} (h : AtPhase s .exit top outer) :
    step s = .next ((s.setDepth (s.depth - 1)).setPhase .done) := by
  rw [step_of_session h.legal h.noReset h.sessions, sessionAction, h.phase]; rfl

/-- R170: the step of a session at DONE. -/
theorem step_of_done {s : State} {top : Session} {outer : List Session} (h : AtPhase s .done top outer) :
    step s = sessionDone s := by
  rw [step_of_session h.legal h.noReset h.sessions, sessionAction, h.phase]; rfl

/-- R170: DONE of the outermost session returns to the host. -/
theorem step_of_doneHost {s : State} {top : Session} (h : AtPhase s .done top []) : step s = .next (s.setSessions []) := by
  rw [step_of_done h, sessionDone]
  simp only [h.sessions]

/-- R170, R123: DONE of a nested session returns to the PING of the decode outside it. -/
theorem step_of_donePing {s : State} {top next : Session} {outer : List Session} (h : AtPhase s .done top (next :: outer)) :
    step s = .next ((s.setSessions (next :: outer)).advanceCur 2) := by
  rw [step_of_done h, sessionDone]
  simp only [h.sessions]

/-- R15, R123: advancing the innermost cursor changes the context stack only. -/
theorem State.advanceCur_eq {s : State} {ctx : Context} {rest : List Context} (hx : s.ctxs = ctx :: rest) (n : Nat) :
    s.advanceCur n = s.setCtxs ({ ctx with cur := ctx.cur + n } :: rest) := by
  rw [State.advanceCur]
  simp only [hx]

/-- Settles O35: EXIT, then DONE by whether a session waits outside. -/
theorem exitRestoresDepth : Obligations.ExitRestoresDepth := by
  intro s top outer
  refine ⟨fun h => ?_, fun h hout => ?_, fun h hout ctx rest hx => ?_⟩
  · rw [step_of_exit h, State.setPhase_eq (by exact h.sessions)]; rfl
  · subst hout
    exact step_of_doneHost h
  · obtain ⟨next, waiting, rfl⟩ := List.exists_cons_of_ne_nil hout
    rw [step_of_donePing h, State.advanceCur_eq (by exact hx)]
    rfl

end Sys2Proof.Machine
end

section
/-! PROOFS. What a nested session leaves alone: the contexts of the decodes outside it and the sessions that wait there (R49). -/
namespace Sys2Proof.Machine

/-! ### The tails of the two stacks -/

/-- R170: the innermost session changes its state; the sessions outside it stay. -/
@[simp] theorem State.tail_sessions_setPhase (s : State) (p : Phase) : (s.setPhase p).sessions.tail = s.sessions.tail := by
  rw [State.setPhase_sessions]
  cases s.sessions <;> rfl

@[simp] theorem State.tail_sessions_endDecode (s : State) : s.endDecode.sessions.tail = s.sessions.tail := by
  simp [State.endDecode]

@[simp] theorem State.tail_sessions_buildFrame (s : State) (record : List Byte) (len : Nat) :
    (s.buildFrame record len).sessions.tail = s.sessions.tail := by
  simp [State.buildFrame]

@[simp] theorem State.tail_sessions_abortEncode (s : State) (e : ErrorKind) :
    (s.abortEncode e).sessions.tail = s.sessions.tail := by
  simp [State.abortEncode]

@[simp] theorem State.tail_sessions_acceptFrame (s : State) (sq : Byte) : (s.acceptFrame sq).sessions.tail = s.sessions.tail := by
  simp [State.acceptFrame]

@[simp] theorem State.tail_sessions_transmitted (s : State) (frame : List Byte) :
    (s.transmitted frame).sessions.tail = s.sessions.tail := by
  simp only [State.transmitted]
  split <;> simp

/-- R15: the innermost cursor moves; the contexts outside it stay. -/
@[simp] theorem State.tail_ctxs_advanceCur (s : State) (n : Nat) : (s.advanceCur n).ctxs.tail = s.ctxs.tail := by
  rw [State.advanceCur_ctxs]
  cases s.ctxs <;> rfl

@[simp] theorem State.tail_ctxs_acceptFrame (s : State) (sq : Byte) : (s.acceptFrame sq).ctxs.tail = s.ctxs.tail := by
  rw [State.acceptFrame, State.setPhase_ctxs, State.setCur_ctxs, State.checkSequence_ctxs]
  cases s.ctxs <;> rfl

end Sys2Proof.Machine

namespace Sys2Proof.Safety

open Sys2Proof.Machine

section Outer
variable {s t : State} {top : Session} {outer : List Session}

/-! ### The contexts outside the innermost session -/

theorem outerContexts_suffix (s : State) : outerContexts s <:+ s.ctxs := by
  unfold outerContexts
  split
  · exact List.suffix_refl _
  · split
    · exact List.tail_suffix _
    · exact List.suffix_refl _

theorem outerContexts_of_decoding (hs : s.sessions = top :: outer) (hd : decoding top.phase = true) :
    outerContexts s = s.ctxs.tail := by
  simp only [outerContexts, hs, hd, if_true]

/-- R29: each outer session has one context. -/
theorem Inv.length_outerContexts (h : Inv s) (hs : s.sessions = top :: outer) : (outerContexts s).length = outer.length := by
  have hlen := h.contexts_cons hs
  cases hd : decoding top.phase <;> simp [outerContexts, hs, hd, hlen]

/-! ### The step of a session -/

/-- R49: the sessions outside the innermost one stay open, unless it is at DONE or a reset is taken. -/
theorem moves_keep_outer_sessions (hm : Moves s t) (hr : s.env.resetLine = false) (hs : s.sessions = top :: outer)
    (hp : top.phase ≠ .done) : s.sessions.tail <:+ t.sessions := by
  have keep {u : State} (hu : u.sessions.tail = s.sessions.tail) : s.sessions.tail <:+ u.sessions :=
    hu ▸ List.tail_suffix _
  cases hm with
  | reset h => simp [h] at hr
  | idle => exact List.tail_suffix _
  | host _ hnil => simp [hnil] at hs
  | ping => exact (List.tail_suffix _).trans (List.suffix_cons _ _)
  | doneHost _ _ hs' hp' | donePing _ _ _ _ hs' hp' => cases hs.symm.trans hs'; exact absurd hp' hp
  | _ => exact keep (by simp)

/-- R49, R248: the contexts outside the innermost session stay as they are, unless it is at DONE or a reset is taken. -/
theorem moves_keep_outerContexts (hm : Moves s t) (hr : s.env.resetLine = false) (hs : s.sessions = top :: outer)
    (hp : top.phase ≠ .done) : outerContexts s <:+ t.ctxs := by
  have same {u : State} (hu : u.ctxs = s.ctxs) : outerContexts s <:+ u.ctxs := hu ▸ outerContexts_suffix s
  have inner {u : State} {top' : Session} {outer' : List Session} (hs' : s.sessions = top' :: outer')
      (hd : decoding top'.phase = true) (hu : u.ctxs.tail = s.ctxs.tail) : outerContexts s <:+ u.ctxs := by
    rw [outerContexts_of_decoding hs' hd, ← hu]
    exact List.tail_suffix _
  cases hm with
  | reset h => simp [h] at hr
  | host _ hnil => simp [hnil] at hs
  | receive => simpa using (outerContexts_suffix s).trans (List.suffix_cons _ _)
  | gateSilent _ _ _ hs' hp' | gateVersion _ _ _ hs' hp' | frameEnd _ _ _ hs' hp' | unknown _ _ _ hs' hp'
  | truncated _ _ _ hs' hp' | truncatedPong _ _ _ hs' hp' =>
    simp [outerContexts_of_decoding hs' (by rw [hp']; rfl)]
  | accept _ _ _ hs' hp' | nop _ _ _ hs' hp' | pong _ _ _ hs' hp' | countdown _ _ _ hs' hp' =>
    exact inner hs' (by rw [hp']; rfl) (by simp)
  | doneHost _ _ hs' hp' | donePing _ _ _ _ hs' hp' => cases hs.symm.trans hs'; exact absurd hp' hp
  | _ => exact same (by simp)

end Outer

/-- The end of a list of a given length, in two lists that share it. -/
theorem drop_eq_of_suffix {α : Type} {l a b : List α} (ha : l <:+ a) (hb : l <:+ b) :
    a.drop (a.length - l.length) = b.drop (b.length - l.length) :=
  (List.suffix_iff_eq_drop.1 ha).symm.trans (List.suffix_iff_eq_drop.1 hb)

/-- Settles O56: the contexts outside are the end of the stack before the step and after it. -/
theorem outerDecodesUndisturbed : Obligations.OuterDecodesUndisturbed := by
  intro s t top outer h hr hs hp hstep
  obtain ⟨-, hm⟩ := step_moves hstep
  rw [← h.length_outerContexts hs]
  refine ⟨drop_eq_of_suffix (moves_keep_outerContexts hm hr hs hp) (outerContexts_suffix s), ?_⟩
  simpa [hs] using moves_keep_outer_sessions hm hr hs hp

end Sys2Proof.Safety
end

section
/-! PROOFS. Decoding and encoding agree: received records in both directions (R62, R63, R120, R121), and what the reader of
outbound frames gives for an encoded STATUS or PONG (R65, R67, R147, R150). -/
namespace Sys2Proof

/-! ### The opcodes of a legal configuration -/

/-- R9: the ten pairs of opcodes differ. -/
theorem Config.nodup_opcodes_iff (c : Config) : c.opcodes.Nodup ↔
    (c.opcNop ≠ c.opcStatus ∧ c.opcNop ≠ opcPing ∧ c.opcNop ≠ opcPong ∧ c.opcNop ≠ c.opcReset) ∧
    (c.opcStatus ≠ opcPing ∧ c.opcStatus ≠ opcPong ∧ c.opcStatus ≠ c.opcReset) ∧
    (opcPing ≠ opcPong ∧ opcPing ≠ c.opcReset) ∧ opcPong ≠ c.opcReset := by
  simp [Config.opcodes]

/-! ### The decoder, by the first byte -/

section Decode
variable {c : Config}

/-- R122: NOP is decoded under every opcode map, because its opcode is compared first. -/
theorem decode_opcNop (c : Config) (rest : List Byte) : decode c (c.opcNop :: rest) = .record .nop rest := by
  simp [decode]

theorem decode_opcPing (h : c.opcodes.Nodup) (rest : List Byte) : decode c (opcPing :: rest) = takeArg .ping rest := by
  obtain ⟨⟨-, hnop, -, -⟩, -⟩ := c.nodup_opcodes_iff.1 h
  simp [decode, hnop.symm]

theorem decode_opcPong (h : c.opcodes.Nodup) (rest : List Byte) : decode c (opcPong :: rest) = takeArg .pongRx rest := by
  obtain ⟨⟨-, -, hnop, -⟩, -, ⟨hping, -⟩, -⟩ := c.nodup_opcodes_iff.1 h
  simp [decode, hnop.symm, hping.symm]

theorem decode_opcReset (h : c.opcodes.Nodup) (rest : List Byte) : decode c (c.opcReset :: rest) = takeArg .reset rest := by
  obtain ⟨⟨-, -, -, hnop⟩, -, ⟨-, hping⟩, hpong⟩ := c.nodup_opcodes_iff.1 h
  simp [decode, hnop.symm, hping.symm, hpong.symm]

theorem decode_opcStatus (h : c.opcodes.Nodup) (rest : List Byte) :
    decode c (c.opcStatus :: rest) = .record .statusRx rest := by
  obtain ⟨⟨hnop, -, -, -⟩, ⟨hping, hpong, hreset⟩, -⟩ := c.nodup_opcodes_iff.1 h
  simp [decode, hnop.symm, hping, hpong, hreset]

/-- R68, R127: any other byte stands for itself. -/
theorem decode_unknown {op : Byte} (h : unknownOpcode c op) (rest : List Byte) :
    decode c (op :: rest) = .record (.unknownRx op) rest := by
  simp only [unknownOpcode, Config.opcodes, List.mem_cons, List.not_mem_nil, or_false, not_or] at h
  obtain ⟨hnop, hstatus, hping, hpong, hreset⟩ := h
  simp [decode, hnop, hstatus, hping, hpong, hreset]

end Decode

/-- R62, R121: the argument byte is the next one if there is one, and the record is truncated only where nothing follows. -/
theorem takeArg_toList (mk : Option Byte → Instr) {arg : Option Byte} {rest : List Byte} (h : arg = none → rest = []) :
    takeArg mk (arg.toList ++ rest) = .record (mk arg) rest := by
  cases arg with
  | none => rw [h rfl]; rfl
  | some a => rfl

/-- Settles O2: the opcode selects the record, because the opcodes of a legal configuration differ, and `takeArg` takes back the
argument byte. -/
theorem receivedRecordsRoundTrip : Obligations.ReceivedRecordsRoundTrip := by
  intro c errs i rest hc hw hr ht
  obtain ⟨-, hop, -, -⟩ := hc
  cases i with
  | nop => exact decode_opcNop c rest
  | statusRx => exact decode_opcStatus hop rest
  | ping echo => exact (decode_opcPing hop _).trans (takeArg_toList _ fun h => ht (by rw [h]; rfl))
  | pongRx echo => exact (decode_opcPong hop _).trans (takeArg_toList _ fun h => ht (by rw [h]; rfl))
  | reset count => exact (decode_opcReset hop _).trans (takeArg_toList _ fun h => ht (by rw [h]; rfl))
  | unknownRx op => exact decode_unknown (of_decide_eq_true hw) rest
  | statusTx | pongTx | unsupportedTx => cases hr

/-- Settles O3: each form that `decode_cases` gives is well-formed and received, and its bytes are its encoding. -/
theorem decodedRecordsAreTheirBytes : Obligations.DecodedRecordsAreTheirBytes := by
  intro c errs bytes hne
  obtain ⟨i, rest, hd⟩ := Machine.decode_isRecord (c := c) hne
  refine ⟨i, rest, hd, ?_⟩
  rcases Machine.decode_cases hd with ⟨rfl, rfl⟩ | ⟨rfl, rfl⟩ | ⟨op, rfl, hop, rfl⟩ | ⟨hi, rfl⟩ | ⟨a, hi⟩
  · exact ⟨rfl, rfl, rfl, nofun⟩
  · exact ⟨rfl, rfl, rfl, nofun⟩
  · exact ⟨decide_eq_true hop, rfl, rfl, nofun⟩
  · rcases hi with ⟨rfl, rfl⟩ | ⟨rfl, rfl⟩ | ⟨rfl, rfl⟩ <;> exact ⟨rfl, rfl, rfl, fun _ => rfl⟩
  · rcases hi with ⟨rfl, rfl⟩ | ⟨rfl, rfl⟩ | ⟨rfl, rfl⟩ <;> exact ⟨rfl, rfl, rfl, nofun⟩

/-- Settles O1: but for the empty stream, each byte string is the encoding of its record and what follows it. -/
theorem defaultOpcodesDecode : Obligations.DefaultOpcodesDecode := by
  have back (i : Instr) (rest : List Byte) := receivedRecordsRoundTrip Config.default 0 i rest (by decide)
  exact ⟨back .nop [0x55] rfl rfl nofun, back .statusRx [0x00] rfl rfl nofun, back (.ping (some 0x7A)) [] rfl rfl nofun,
    back (.pongRx (some 0x99)) [0x00] rfl rfl nofun, back (.reset (some 0x03)) [] rfl rfl nofun,
    back (.unknownRx 0x05) [] (by decide) rfl nofun, back (.unknownRx 0xFF) [0x02] (by decide) rfl nofun,
    back (.ping none) [] rfl rfl fun _ => rfl, rfl⟩

/-! ### The reader of outbound frames -/

/-- R65: the reader `f` of a field gives back what `w` wrote, and leaves the bytes after it. -/
def ReadsBack {α : Type} (f : List Byte → Option (α × List Byte)) (w : α → List Byte) : Prop :=
  ∀ v rest, f (w v ++ rest) = some (v, rest)

/-- Two fields in a row are read back when each is. -/
theorem ReadsBack.takeTwo {α β : Type} {f : List Byte → Option (α × List Byte)} {g : List Byte → Option (β × List Byte)}
    {wf : α → List Byte} {wg : β → List Byte} (hf : ReadsBack f wf) (hg : ReadsBack g wg) :
    ReadsBack (takeTwo f g) fun v => wf v.1 ++ wg v.2 := by
  intro v rest
  simp only [Sys2Proof.takeTwo, List.append_assoc, hf v.1, hg v.2]

/-- R65: a field that may be absent is read back when the reader is told whether it is there. -/
theorem ReadsBack.takeIf {α : Type} {f : List Byte → Option (α × List Byte)} {w : α → List Byte} (hf : ReadsBack f w)
    (v : Option α) (rest : List Byte) : takeIf v.isSome f (optBytes w v ++ rest) = some (v, rest) := by
  cases v with
  | none => rfl
  | some a => simp only [Sys2Proof.takeIf, Option.isSome_some, if_true, optBytes, hf a]

theorem readsBack_takeHalf : ReadsBack takeHalf (leBytes 2) := takeHalf_leBytes

theorem readsBack_takeWord : ReadsBack takeWord (leBytes 4) := takeWord_leBytes

/-- R65: the fields that are there are those whose bits of the status word are set. -/
structure StatusWire.FieldsFollowBits (c : Config) (w : StatusWire) : Prop where
  mask : statusBit w.sw sErr = w.mask.isSome
  runtime : statusBit w.sw c.sRuntime = w.runtime.isSome
  batt : statusBit w.sw c.sBatt = w.batt.isSome
  humTemp : statusBit w.sw c.sHumTemp = w.humTemp.isSome

/-- R147: what a STATUS carries follows the bits of its serialised status word. -/
theorem statusWire_fieldsFollowBits (c : Config) (errs : Half) (p : StatusRecord) :
    (statusWire c errs p).FieldsFollowBits c :=
  ⟨(isSome_presence _ _).symm, (isSome_presence _ _).symm, (isSome_presence _ _).symm, (isSome_presence _ _).symm⟩

/-- R67: a payload whose fields follow its status bits is parsed back by them, to the last byte. -/
theorem parseStatus_statusBytes {c : Config} {w : StatusWire} (h : w.FieldsFollowBits c) :
    parseStatus c (statusBytes w) = some w := by
  have hlast := (readsBack_takeHalf.takeTwo readsBack_takeHalf).takeIf w.humTemp []
  rw [List.append_nil] at hlast
  simp only [parseStatus, statusBytes, List.append_assoc, readsBack_takeHalf w.sw, h.mask, h.runtime, h.batt, h.humTemp,
    readsBack_takeHalf.takeIf, (readsBack_takeWord.takeTwo readsBack_takeWord).takeIf, hlast, if_true]

theorem parseOutbound_status (c : Config) (payload : List Byte) :
    parseOutbound c (c.opcStatus :: payload) = (parseStatus c payload).map .status := by
  simp [parseOutbound]

theorem parseOutbound_pong {c : Config} (h : c.opcodes.Nodup) (payload : List Byte) :
    parseOutbound c (opcPong :: payload) = some (.pong payload) := by
  obtain ⟨-, ⟨-, hstatus, -⟩, -⟩ := c.nodup_opcodes_iff.1 h
  simp [parseOutbound, hstatus.symm]

/-- Settles O4: a STATUS is parsed back field by field, and a PONG is all the bytes after its opcode. -/
theorem outboundRecordsRoundTrip : Obligations.OutboundRecordsRoundTrip := by
  intro c errs hc
  obtain ⟨-, hop, -, -⟩ := hc
  refine ⟨fun p => ?_, fun data => parseOutbound_pong hop data⟩
  rw [encode, parseOutbound_status, parseStatus_statusBytes (statusWire_fieldsFollowBits c errs p), Option.map_some]

end Sys2Proof
end

section
/-! PROOFS. How many frames an open session can still send (R179): none of its steps raises the number of frames sent plus this
bound. The session's own frame is 1; each PING of the frame it receives may send one more, and a received frame has at most 15;
a PING received inside a PING opens a third session, which is rejected (R172). -/
namespace Sys2Proof.Machine

open Sys2Proof.Safety

/-! ### What a step of an open session leaves of the environment -/

theorem Env.drawTransmit_resetLine (e : Env) : e.drawTransmit.2.resetLine = e.resetLine := by
  simp only [Env.drawTransmit]; split <;> rfl
theorem Env.drawReady_resetLine (e : Env) : e.drawReady.2.resetLine = e.resetLine := by
  simp only [Env.drawReady]; split <;> rfl
theorem Env.drawReceive_resetLine (e : Env) : e.drawReceive.2.resetLine = e.resetLine := by
  simp only [Env.drawReceive]; split <;> rfl

theorem Env.drawTransmit_hostOps (e : Env) : e.drawTransmit.2.hostOps = e.hostOps := by
  simp only [Env.drawTransmit]; split <;> rfl
theorem Env.drawReady_hostOps (e : Env) : e.drawReady.2.hostOps = e.hostOps := by
  simp only [Env.drawReady]; split <;> rfl
theorem Env.drawReceive_hostOps (e : Env) : e.drawReceive.2.hostOps = e.hostOps := by
  simp only [Env.drawReceive]; split <;> rfl

/-- R190: no reset is asked for and the host has issued nothing. -/
def Env.quiet (e : Env) : Prop := e.resetLine = false ∧ e.hostOps = []

/-- R202, R242: the block itself neither issues an operation nor raises the reset line. -/
theorem Moves.quiet {s t : State} (hm : Moves s t) (hq : s.env.quiet) : t.env.quiet := by
  obtain ⟨hr, ho⟩ := hq
  cases hm with
  | reset h => simp [h] at hr
  | host _ _ _ _ h => simp [h] at ho
  | transmit => exact ⟨by simp [Env.drawTransmit_resetLine, hr], by simp [Env.drawTransmit_hostOps, ho]⟩
  | poll => exact ⟨by simp [Env.drawReady_resetLine, hr], by simp [Env.drawReady_hostOps, ho]⟩
  | receive => exact ⟨by simp [Env.drawReceive_resetLine, hr], by simp [Env.drawReceive_hostOps, ho]⟩
  | _ => exact ⟨by simp [hr], by simp [ho]⟩

end Sys2Proof.Machine

namespace Sys2Proof.Safety

open Sys2Proof.Machine

/-! ### The PINGs of the outermost decode -/

/-- R107, R123: how many two-byte PING records fit into what is unread of a frame; its records start at offset 2. -/
def pingsLeft (ctx : Context) : Nat := (ctx.rxLen - max 2 ctx.cur) / 2

/-- The PINGs left of the outermost decode. -/
def outermostPings (ctxs : List Context) : Nat := ctxs.getLast?.elim 0 pingsLeft

@[simp] theorem outermostPings_nil : outermostPings [] = 0 := rfl

@[simp] theorem outermostPings_singleton (ctx : Context) : outermostPings [ctx] = pingsLeft ctx := rfl

@[simp] theorem outermostPings_cons_cons (c d : Context) (rest : List Context) :
    outermostPings (c :: d :: rest) = outermostPings (d :: rest) := by
  simp [outermostPings]

theorem pingsLeft_le_of_forward {c d : Context} (h : Forward c d) : pingsLeft d ≤ pingsLeft c := by
  obtain ⟨-, hlen, hcur⟩ := h
  unfold pingsLeft
  omega

/-- Decodes that go forward gain no PING. -/
theorem outermostPings_le_of_forward {l l' : List Context} (h : List.Forall₂ Forward l l') :
    outermostPings l' ≤ outermostPings l := by
  induction h with
  | nil => exact Nat.le_refl 0
  | cons hcd hrest ih =>
    cases hrest with
    | nil => exact pingsLeft_le_of_forward hcd
    | cons => simpa using ih

/-- The end of a decode gains no PING. -/
theorem outermostPings_tail_le (l : List Context) : outermostPings l.tail ≤ outermostPings l := by
  match l with
  | [] | [_] => exact Nat.zero_le _
  | _ :: _ :: _ => simp

/-! ### The frames a state can still send -/

/-- R173, R174: the frame that a session sends itself, as long as it has not sent it. -/
def unsent : Phase → Nat
  | .enter | .encode | .transmit => 1
  | .reject | .poll | .receive | .decode _ | .exit | .done => 0

/-- R73, R175: the most PINGs a frame has, as long as the session has not received one. -/
def undelivered : Phase → Nat
  | .enter | .encode | .transmit | .poll | .receive => (maxFrame - 2) / 2
  | .reject | .decode _ | .exit | .done => 0

/-- R179: the frames that can still be sent when `waiting` decodes wait outside the innermost session, which is at `p`. The
outermost of them waits at a PING that is already counted as a session. A third session sends nothing (R172). -/
def framesLeftAt : (waiting : Nat) → (p : Phase) → (ctxs : List Context) → Nat
  | 0, p, ctxs => unsent p + undelivered p + outermostPings ctxs
  | 1, p, ctxs => unsent p + (outermostPings ctxs - 1)
  | _ + 2, _, ctxs => outermostPings ctxs - 1

/-- R179: the frames that the open sessions can still send. -/
def framesLeft (s : State) : Nat :=
  match s.sessions with
  | [] => 0
  | top :: outer => framesLeftAt outer.length top.phase s.ctxs

theorem framesLeft_nil {s : State} (hs : s.sessions = []) : framesLeft s = 0 := by
  simp only [framesLeft, hs]

theorem framesLeft_cons {s : State} {top : Session} {outer : List Session} (hs : s.sessions = top :: outer) :
    framesLeft s = framesLeftAt outer.length top.phase s.ctxs := by
  simp only [framesLeft, hs]

/-- A session that has neither a frame to send nor one to receive more than before can send no more. -/
theorem framesLeftAt_le {p q : Phase} {l l' : List Context} (n : Nat)
    (hp : unsent p ≤ unsent q ∧ undelivered p ≤ undelivered q) (hl : outermostPings l' ≤ outermostPings l) :
    framesLeftAt n p l' ≤ framesLeftAt n q l := by
  match n with
  | 0 | 1 | _ + 2 => simp only [framesLeftAt]; omega

/-- R174: an accepted session that transmits has its frame behind it. -/
theorem framesLeftAt_transmitted {n : Nat} (hn : n ≤ 1) (l : List Context) :
    framesLeftAt n .poll l + 1 = framesLeftAt n .transmit l := by
  match n with
  | 0 | 1 => simp only [framesLeftAt, unsent, undelivered]; omega

/-- R175, R73: the frame received has at most the PINGs that were counted for it; inside another decode they count for nothing. -/
theorem framesLeftAt_received {n : Nat} {ctx : Context} {l : List Context} (hl : l.length = n) (hc : ctx.rxLen ≤ maxFrame) :
    framesLeftAt n (.decode .gates) (ctx :: l) ≤ framesLeftAt n .receive l := by
  match l with
  | [] =>
    subst hl
    simp only [maxFrame] at hc
    simp only [List.length_nil, framesLeftAt, unsent, undelivered, outermostPings_singleton, outermostPings_nil, pingsLeft,
      maxFrame]
    omega
  | [_] | _ :: _ :: _ => subst hl; simp [framesLeftAt, unsent]

/-- R123: a PING turns into a session of its own. -/
theorem framesLeftAt_opened {n : Nat} {ctx : Context} {rest : List Context} (hl : rest.length = n) (h2 : 2 ≤ ctx.cur)
    (hc : ctx.cur + 2 ≤ ctx.rxLen) :
    framesLeftAt (n + 1) .enter (ctx :: rest) ≤ framesLeftAt n (.decode .records) (ctx :: rest) := by
  match rest with
  | [] =>
    subst hl
    simp only [List.length_nil, framesLeftAt, unsent, undelivered, outermostPings_singleton, pingsLeft]
    omega
  | [_] | _ :: _ :: _ => subst hl; simp [framesLeftAt, unsent]

/-- R123, R170: when the session of a PING is done, the decode goes on after the PING. -/
theorem framesLeftAt_resumed {n : Nat} {ctx : Context} {rest : List Context} (hl : rest.length = n) (h2 : 2 ≤ ctx.cur) :
    framesLeftAt n (.decode .records) ({ ctx with cur := ctx.cur + 2 } :: rest) ≤ framesLeftAt (n + 1) .done (ctx :: rest) := by
  match rest with
  | [] =>
    subst hl
    simp only [List.length_nil, framesLeftAt, unsent, undelivered, outermostPings_singleton, pingsLeft]
    omega
  | [_] | _ :: _ :: _ => subst hl; simp [framesLeftAt, unsent]

/-! ### The step -/

section Steps
variable {s t : State} {top : Session} {outer : List Session}

/-- R170: the innermost session changes its state only. -/
theorem framesLeft_le_of_rephase {p q : Phase} (hs : s.sessions = top :: outer) (hq : top.phase = q)
    (ht : t.sessions = { top with phase := p } :: outer) (hp : unsent p ≤ unsent q ∧ undelivered p ≤ undelivered q)
    (hx : outermostPings t.ctxs ≤ outermostPings s.ctxs) : framesLeft t ≤ framesLeft s := by
  rw [framesLeft_cons hs, framesLeft_cons ht, hq]
  exact framesLeftAt_le _ hp hx

/-- R110, R219: the end of a decode. -/
theorem framesLeft_endDecode {d : DecodeStage} (hs : s.sessions = top :: outer) (hp : top.phase = .decode d) :
    framesLeft s.endDecode ≤ framesLeft s :=
  framesLeft_le_of_rephase hs hp (State.endDecode_sessions_cons _ _ _ hs) ⟨Nat.le_refl _, Nat.le_refl _⟩
    (by simpa using outermostPings_tail_le s.ctxs)

/-- R122, R124, R126: a decode goes on after a record that opens no session. -/
theorem framesLeft_advanceCur {u : State} (hs : s.sessions = top :: outer) (hu : u.sessions = s.sessions) (hx : u.ctxs = s.ctxs)
    (n : Nat) : framesLeft (u.advanceCur n) ≤ framesLeft s := by
  rw [framesLeft_cons hs, framesLeft_cons (by simpa [hu] using hs)]
  exact framesLeftAt_le _ ⟨Nat.le_refl _, Nat.le_refl _⟩ (outermostPings_le_of_forward (advanceCur_forward hx n))

/-- R174: TRANSMIT. -/
theorem Inv.framesLeft_transmitted (h : Inv s) (hs : s.sessions = top :: outer) (hp : top.phase = .transmit)
    (frame : List Byte) : framesLeft (s.transmitted frame) + 1 = framesLeft s := by
  have hout := (h.nesting_cons hs).outer_le_one (by rw [hp]; rfl)
  rw [framesLeft_cons hs, hp, framesLeft_cons (State.transmitted_sessions_cons _ _ _ _ hs), State.transmitted_ctxs]
  exact framesLeftAt_transmitted hout s.ctxs

/-- R175: RECEIVE. -/
theorem Inv.framesLeft_received (h : Inv s) (hs : s.sessions = top :: outer) (hp : top.phase = .receive) {frame : List Byte}
    (hl : frame.length ≤ maxFrame) : framesLeft ((s.pushFrame frame).setPhase (.decode .gates)) ≤ framesLeft s := by
  have hs' : (s.pushFrame frame).sessions = top :: outer := hs
  rw [framesLeft_cons hs, hp, framesLeft_cons (State.setPhase_sessions_cons _ _ _ _ hs'), State.setPhase_ctxs, State.pushFrame_ctxs]
  exact framesLeftAt_received (by simpa [hp] using h.contexts_cons hs) hl

/-- R123: a PING opens its session. -/
theorem Inv.framesLeft_opened (h : Inv s) (hs : s.sessions = top :: outer) (hp : top.phase = .decode .records) {ctx : Context}
    {rest : List Context} (hx : s.ctxs = ctx :: rest) (hc : ctx.cur + 2 ≤ ctx.rxLen) (r : Request) :
    framesLeft (s.openSession r) ≤ framesLeft s := by
  rw [framesLeft_cons hs, hp, framesLeft_cons (State.openSession_sessions s r), hs, State.openSession_ctxs, hx]
  exact framesLeftAt_opened (by simpa [hp, hx] using h.contexts_cons hs) (h.two_le_cur hs hp hx) hc

/-- R123, R170: the session of a PING is done. -/
theorem Inv.framesLeft_resumed {next : Session} (h : Inv s) (hs : s.sessions = top :: next :: outer) (hp : top.phase = .done) :
    framesLeft ((s.setSessions (next :: outer)).advanceCur 2) ≤ framesLeft s := by
  obtain ⟨hwait, -, -, -⟩ := h.nesting_cons hs
  have hnext : next.phase = .decode .records := hwait next (by simp)
  have hlen : s.ctxs.length = outer.length + 1 := by simpa [hp] using h.contexts_cons hs
  obtain ⟨ctx, rest, hx⟩ := List.exists_cons_of_length_eq_add_one hlen
  have hsus : SuspendedOk ctx := h.outer_cons hs ctx (by simp [hp, hx])
  rw [framesLeft_cons hs, hp, hx, framesLeft_cons (top := next) (outer := outer) (by simp), hnext,
    State.advanceCur_ctxs_cons _ _ ctx rest (by simpa using hx)]
  exact framesLeftAt_resumed (by simpa [hx] using hlen) hsus.started

/-- R179: no step of an open session raises the number of frames sent and still to be sent. -/
theorem Inv.sent_add_framesLeft_le (h : Inv s) (hq : s.env.quiet) (hm : Moves s t) :
    t.env.sent.length + framesLeft t ≤ s.env.sent.length + framesLeft s := by
  have same {u : State} (hu : u.env.sent = s.env.sent) (hle : framesLeft u ≤ framesLeft s) :
      u.env.sent.length + framesLeft u ≤ s.env.sent.length + framesLeft s := by rw [hu]; exact Nat.add_le_add_left hle _
  obtain ⟨hr, ho⟩ := hq
  cases hm with
  | reset h => simp [h] at hr
  | idle => exact Nat.le_refl _
  | host _ _ _ _ h => simp [h] at ho
  | enter _ top outer hs hp =>
    refine same (by simp) (framesLeft_le_of_rephase hs hp (State.setPhase_sessions_cons _ _ _ _ hs) ?_ (by simp))
    split <;> decide
  | reject _ top outer hs hp | exit _ top outer hs hp =>
    exact same (by simp) (framesLeft_le_of_rephase hs hp (State.setPhase_sessions_cons _ _ _ _ hs) (by decide) (by simp))
  | built _ top outer hs hp =>
    exact same (by simp) (framesLeft_le_of_rephase hs hp (State.buildFrame_sessions_cons _ _ _ _ _ hs) (by decide) (by simp))
  | aborted _ top outer hs hp =>
    exact same (by simp) (framesLeft_le_of_rephase hs hp (State.abortEncode_sessions_cons _ _ _ _ hs) (by decide) (by simp))
  | transmit _ top outer hs hp =>
    have hleft := h.framesLeft_transmitted hs hp s.txFrame
    rw [State.transmitted_env, List.length_append, Env.drawTransmit_sent, List.length_singleton]
    omega
  | poll _ top outer hs hp =>
    refine same (by simp [Env.drawReady_sent])
      (framesLeft_le_of_rephase hs hp (State.setPhase_sessions_cons _ _ _ _ hs) ?_ (by simp))
    split <;> decide
  | receive _ top outer hs hp hl =>
    exact same (by simp [Env.drawReceive_sent]) ((h.setEnv s.env.drawReceive.2).framesLeft_received hs hp hl)
  | gateSilent _ top outer hs hp | gateVersion _ top outer hs hp | frameEnd _ top outer hs hp | unknown _ top outer hs hp
  | truncated _ top outer hs hp | truncatedPong _ top outer hs hp =>
    exact same (by simp) (framesLeft_endDecode hs hp)
  | accept _ top outer hs hp ctx rest hx _ _ _ _ _ sq =>
    exact same (by simp) (framesLeft_le_of_rephase hs hp (State.acceptFrame_sessions_cons _ _ _ _ hs) (by decide)
      (outermostPings_le_of_forward (h.acceptFrame_forward hs hp hx sq)))
  | nop _ top outer hs | pong _ top outer hs | countdown _ top outer hs =>
    exact same (by simp) (framesLeft_advanceCur hs (by simp) (by simp) _)
  | ping _ top outer hs hp ctx rest hx hc => exact same rfl (h.framesLeft_opened hs hp hx hc _)
  | doneHost => exact same rfl (by rw [framesLeft_nil rfl]; exact Nat.zero_le _)
  | donePing _ top next outer hs hp => exact same (by simp) (h.framesLeft_resumed hs hp)

end Steps

/-! ### The run -/

/-- What every step keeps holds after any number of steps. -/
theorem run_keeps {P : State → Prop} (hstep : ∀ s t, P s → step s = .next t → P t) {k : Nat} {s t : State} (hs : P s)
    (h : run k s = .next t) : P t := by
  induction k generalizing s with
  | zero => rw [run_zero] at h; cases h; exact hs
  | succ k ih =>
    obtain ⟨u, hu, hrun⟩ := run_succ_cases h
    exact ih (hstep s u hs hu) hrun

/-- R179: a sound state that no reset and no operation of the host disturbs, and that can send no frame beyond the `n`-th. -/
structure SendsAtMost (n : Nat) (s : State) : Prop where
  inv : Inv s
  quiet : s.env.quiet
  bound : s.env.sent.length + framesLeft s ≤ n

theorem SendsAtMost.step {n : Nat} {s t : State} (h : SendsAtMost n s) (hstep : step s = .next t) : SendsAtMost n t := by
  obtain ⟨-, hm⟩ := step_moves hstep
  exact ⟨h.inv.moves hm, hm.quiet h.quiet, (h.inv.sent_add_framesLeft_le h.quiet hm).trans h.bound⟩

/-- R179: at ENTER of the host's session no context is on the stack, and 1 + 15 frames can be sent. -/
theorem Inv.framesLeft_of_entering {s : State} (h : Inv s) {r : Request} (hs : s.sessions = [{ phase := .enter, request := r }]) :
    framesLeft s = 16 := by
  have hx : s.ctxs = [] := List.length_eq_zero_iff.1 (h.contexts_cons hs)
  rw [framesLeft_cons hs, hx]
  rfl

/-- Settles O59: no step of the run raises the frames sent and still to be sent, which are 16 more at ENTER. -/
theorem sessionSendsAtMostSixteen : Obligations.SessionSendsAtMostSixteen := by
  intro s r h hr hs ho k t hrun
  have hstart : SendsAtMost (s.env.sent.length + 16) s := ⟨h, ⟨hr, ho⟩, by rw [h.framesLeft_of_entering hs]⟩
  have hend := run_keeps (fun _ _ => SendsAtMost.step) hstart hrun
  exact (Nat.le_add_right _ _).trans hend.bound

end Sys2Proof.Safety
end

section
/-! PROOFS. A received frame from POLL to the end of its decode: the poll and the delivery (R175, R194, R195), the gates (R101 to
R107), the record loop (R108, R110); and what leaves the block (R113, R193). -/
namespace Sys2Proof.Machine

open Sys2Proof.Safety

/-! ### Whole updates of the state -/

section Updates
variable {s : State} {top : Session} {outer : List Session} {ctx : Context} {rest : List Context}

/-- R110, R219: all that the end of a decode changes. -/
theorem State.endDecode_eq (hs : s.sessions = top :: outer) (hx : s.ctxs = ctx :: rest) :
    s.endDecode = { s with ctxs := rest, sessions := { top with phase := .exit } :: outer } := by
  rw [State.endDecode, State.setPhase_eq (by exact hs), State.popCtx, hx]
  rfl

/-- R15: moving the innermost cursor changes the context stack only. -/
theorem State.setCur_eq (hx : s.ctxs = ctx :: rest) (n : Nat) : s.setCur n = s.setCtxs ({ ctx with cur := n } :: rest) := by
  rw [State.setCur]
  simp only [hx]

/-- R106: all that the sequence check changes. -/
theorem State.checkSequence_eq (s : State) (sq : Byte) : s.checkSequence sq = { s with
    lastRx := sq
    errCur := if sq = s.lastRx + 1 then s.errCur else s.errCur ||| errorMask s.cfg .seq } := by
  rw [State.checkSequence, State.expectedSeq]
  by_cases hseq : sq = s.lastRx + 1
  · rw [if_neg (not_not.2 hseq), if_pos hseq]; rfl
  · rw [if_pos hseq, if_neg hseq]; rfl

/-- R106, R107: all that accepting a frame changes. -/
theorem State.acceptFrame_eq (hs : s.sessions = top :: outer) (hx : s.ctxs = ctx :: rest) (sq : Byte) :
    s.acceptFrame sq = { s with
      lastRx := sq
      errCur := if sq = s.lastRx + 1 then s.errCur else s.errCur ||| errorMask s.cfg .seq
      ctxs := { ctx with cur := 2 } :: rest
      sessions := { top with phase := .decode .records } :: outer } := by
  rw [State.acceptFrame, State.checkSequence_eq, State.setCur_eq (by exact hx), State.setPhase_eq (by exact hs)]
  rfl

end Updates

/-! ### The gates, one lemma for each way through them -/

section Gates
variable {s : State} {top : Session} {outer : List Session} {ctx : Context} {rest : List Context} {b0 : Byte}

/-- R100, R111: a session before its gates takes them. -/
theorem step_of_gates (h : AtPhase s (.decode .gates) top outer) : step s = decodeGates s := by
  rw [step_of_session h.legal h.noReset h.sessions, sessionAction, h.phase]; rfl

/-- R101. -/
theorem decodeGates_of_short (hx : s.ctxs = ctx :: rest) (hl : ctx.rxLen < minFrame) : decodeGates s = .next s.endDecode := by
  simp only [decodeGates, hx, if_pos hl]

/-- R102, R103. -/
theorem decodeGates_of_otherId (hx : s.ctxs = ctx :: rest) (hl : minFrame ≤ ctx.rxLen) (h0 : ctx.byteAt 0 = some b0)
    (ha : ¬ addressedHere s.cfg b0 = true) : decodeGates s = .next s.endDecode := by
  simp only [decodeGates, hx, if_neg (Nat.not_lt.2 hl), h0, if_pos (Bool.eq_false_iff.2 ha)]

/-- R104. -/
theorem decodeGates_of_otherVersion (hx : s.ctxs = ctx :: rest) (hl : minFrame ≤ ctx.rxLen) (h0 : ctx.byteAt 0 = some b0)
    (ha : addressedHere s.cfg b0 = true) (hv : headerVersion b0 ≠ s.cfg.protoVersion) :
    decodeGates s = .next (s.raise .version).endDecode := by
  simp only [decodeGates, hx, if_neg (Nat.not_lt.2 hl), h0, ha, if_pos hv, Bool.true_eq_false, if_false]

/-- R105 to R107. -/
theorem decodeGates_of_accepted (hx : s.ctxs = ctx :: rest) (hl : minFrame ≤ ctx.rxLen) (h0 : ctx.byteAt 0 = some b0)
    (ha : addressedHere s.cfg b0 = true) (hv : headerVersion b0 = s.cfg.protoVersion) {sq : Byte}
    (h1 : ctx.byteAt 1 = some sq) : decodeGates s = .next (s.acceptFrame sq) := by
  simp only [decodeGates, hx, if_neg (Nat.not_lt.2 hl), h0, ha, if_neg (not_not.2 hv), h1, Bool.true_eq_false, if_false]

end Gates

/-- Settles O26: the length gate ends the decode. -/
theorem shortFrameIsSilent : Obligations.ShortFrameIsSilent := by
  intro s top outer ctx rest h hx hl
  rw [step_of_gates h, decodeGates_of_short hx hl, State.endDecode_eq h.sessions hx]

/-- Settles O27: the address gate ends the decode, or the frame goes through all the gates. -/
theorem addressGate : Obligations.AddressGate := by
  intro s top outer ctx rest b0 b1 h hx hl h0 h1
  refine ⟨fun hid hbroad => ?_, fun hid hv => ⟨s.acceptFrame b1, ?_, State.acceptFrame_lastRx s b1,
    State.acceptFrame_sessions_cons s b1 top outer h.sessions⟩⟩
  · have ha : ¬ addressedHere s.cfg b0 = true := fun ha => ((addressedHere_iff _ _).1 ha).elim hid hbroad
    rw [step_of_gates h, decodeGates_of_otherId hx hl h0 ha, State.endDecode_eq h.sessions hx]
  · rw [step_of_gates h, decodeGates_of_accepted hx hl h0 ((addressedHere_iff _ _).2 hid) hv h1]

/-- Settles O28: the version gate flags its error, and then ends the decode. -/
theorem versionGate : Obligations.VersionGate := by
  intro s top outer ctx rest b0 h hx hl h0 hid hv
  rw [step_of_gates h, decodeGates_of_otherVersion hx hl h0 ((addressedHere_iff _ _).2 hid) hv, State.raise_eq,
    State.endDecode_eq (by exact h.sessions) (by exact hx)]

/-- Settles O29: the step accepts the frame, and `State.acceptFrame_eq` is the statement's state. -/
theorem sequenceCheckResynchronises : Obligations.SequenceCheckResynchronises := by
  intro s top outer ctx rest b0 sq h hx hl h0 hid hv h1
  rw [step_of_gates h, decodeGates_of_accepted hx hl h0 ((addressedHere_iff _ _).2 hid) hv h1,
    State.acceptFrame_eq h.sessions hx]

/-! ### The record loop -/

/-- Settles O9: the step fetches the record that the unread bytes decode to. -/
theorem stepRunsDecodedRecord : Obligations.StepRunsDecodedRecord := by
  intro s top outer ctx rest bytes tail i h hx hcur hb hd
  exact step_of_record h.legal h.noReset h.sessions h.phase hx hcur hb hd

/-- R108, R110: at the end of the frame there is no record to run. -/
theorem recordAction_of_frameEnd {s : State} {ctx : Context} {rest : List Context} (hx : s.ctxs = ctx :: rest)
    (hc : ctx.rxLen ≤ ctx.cur) : recordAction s = .answer (.next s.endDecode) := by
  simp only [recordAction, hx, if_neg (Nat.not_lt.2 hc)]

/-- Settles O30: the record loop ends the decode. -/
theorem frameEndReturns : Obligations.FrameEndReturns := by
  intro s top outer ctx rest h hx hc
  rw [step_of_session h.legal h.noReset h.sessions, sessionAction, h.phase]
  simp only [recordAction_of_frameEnd hx hc, Action.outcome, State.endDecode_eq h.sessions hx]

/-! ### POLL and RECEIVE -/

/-- R194 (log entry 4): the answer of `DataReady` is the next one supplied. -/
theorem Env.drawReady_of_supplied {e : Env} {b : Bool} {bs : List Bool} (h : e.readyAnswers = b :: bs) :
    e.drawReady = (b, { e with readyAnswers := bs }) := by
  rw [Env.drawReady]
  simp only [h]

/-- R195 (log entry 4): the frame of `Receive` is the next one supplied. -/
theorem Env.drawReceive_of_supplied {e : Env} {f : List Byte} {fs : List (List Byte)} (h : e.receiveAnswers = f :: fs) :
    e.drawReceive = (f, { e with receiveAnswers := fs }) := by
  rw [Env.drawReceive]
  simp only [h]

/-- R175: the step at POLL. -/
theorem step_of_poll {s : State} {top : Session} {outer : List Session} (h : AtPhase s .poll top outer) :
    step s = .next ((s.setEnv s.env.drawReady.2).setPhase (if s.env.drawReady.1 then .receive else .exit)) := by
  rw [step_of_session h.legal h.noReset h.sessions, sessionAction, h.phase]; rfl

/-- R175, R100: the step at RECEIVE, for a frame that fits. -/
theorem step_of_receive {s : State} {top : Session} {outer : List Session} (h : AtPhase s .receive top outer)
    (hl : s.env.drawReceive.1.length ≤ maxFrame) :
    step s = .next (((s.setEnv s.env.drawReceive.2).pushFrame s.env.drawReceive.1).setPhase (.decode .gates)) := by
  rw [step_of_session h.legal h.noReset h.sessions, sessionAction, h.phase]
  exact if_neg (Nat.not_lt.2 hl)

/-- Settles O34: the poll by its answer; the delivery by its length, the context pushed being that of `State.pushFrame`. -/
theorem pollAndReceive : Obligations.PollAndReceive := by
  intro s top outer
  refine ⟨fun h b bs hb => ?_, fun h f fs hf => ?_⟩
  · rw [step_of_poll h, Env.drawReady_of_supplied hb, State.setPhase_eq (by exact h.sessions)]
    rfl
  · have hdraw := Env.drawReceive_of_supplied hf
    refine ⟨fun hl => ⟨{ rx := Memory.ofBytes f, rxLen := f.length, cur := 0 }, rfl, rfl, Memory.read_ofBytes f, ?_⟩,
      fun hl => step_of_overlong h (by rw [hdraw]; exact hl)⟩
    rw [step_of_receive h (by rw [hdraw]; exact hl), hdraw, State.setPhase_eq (by exact h.sessions)]
    rfl

end Sys2Proof.Machine

namespace Sys2Proof.Safety

open Sys2Proof.Machine

/-! ### What leaves the block -/

/-- R193: a sound session at TRANSMIT has its frame in `tx`, 3 to 32 bytes, every one of them written. -/
theorem Inv.exists_builtFrame {s : State} (h : Inv s) {top : Session} {outer : List Session} (hs : s.sessions = top :: outer)
    (hp : top.phase = .transmit) :
    ∃ frame, s.tx.readBytes 0 s.txLen = some frame ∧ minFrame ≤ frame.length ∧ frame.length ≤ maxFrame := by
  obtain ⟨hmin, hfull⟩ := h.tx.built top outer hs hp
  obtain ⟨frame, hf⟩ := Memory.readBytes_isSome (a := 0) fun i hi => (Nat.zero_add i).symm ▸ hfull i hi
  have hlen := Memory.readBytes_length hf
  exact ⟨frame, hf, hlen ▸ hmin, hlen ▸ h.tx.len⟩

/-- Settles O57: TRANSMIT sends the frame built, and every other kind of step leaves what was sent alone. -/
theorem framesLeaveOnlyAtTransmit : Obligations.FramesLeaveOnlyAtTransmit := by
  intro s t h hstep
  obtain ⟨hc, hm⟩ := step_moves hstep
  cases hm with
  | host _ _ op => cases op <;> exact .inl (by simp)
  | transmit hr top outer hs hp =>
    obtain ⟨frame, hf, h3, h32⟩ := h.exists_builtFrame hs hp
    refine .inr ⟨top, outer, frame, ⟨hc, hr, hs, hp⟩, hf, h3, h32, ?_⟩
    simp only [State.transmitted_env, State.txFrame_of_readBytes hf, Env.drawTransmit_sent]
  | poll => exact .inl (by simp [Env.drawReady_sent])
  | receive => exact .inl (by simp [Env.drawReceive_sent])
  | _ => exact .inl (by simp)

end Sys2Proof.Safety
end

section
/-! PROOFS. The received records, one meaning at a time (R121 to R127), and a whole PING (R123): its session sends one PONG, or is
rejected at the depth bound, and the decode goes on. -/
namespace Sys2Proof.Safety

open Sys2Proof.Machine

/-- R242: no step asks for a reset. -/
theorem step_keeps_noReset {s t : State} (h : s.env.resetLine = false) (hstep : step s = .next t) : t.env.resetLine = false := by
  obtain ⟨-, hm⟩ := step_moves hstep
  cases hm with
  | host _ _ op => cases op <;> simp [h]
  | _ => simp [h, Env.drawTransmit_resetLine, Env.drawReady_resetLine, Env.drawReceive_resetLine]

/-- A run goes on where its first steps led. -/
theorem run_add_of_next {k : Nat} {s t : State} (h : run k s = .next t) (m : Nat) : run (k + m) s = run m t := by
  induction k generalizing s with
  | zero => cases h; rw [Nat.zero_add]
  | succ k ih =>
    obtain ⟨u, hstep, hrun⟩ := run_succ_cases h
    rw [Nat.succ_add, run_succ_of_next hstep, ih hrun]

/-- The machine still runs after some steps, with the sessions that they leave. -/
theorem AtPhase.after_run {s t : State} {p q : Phase} {top inner : Session} {outer waiting : List Session}
    (h : AtPhase s p top outer) {k : Nat} (hrun : run k s = .next t) (hs : t.sessions = inner :: waiting)
    (hq : inner.phase = q) : AtPhase t q inner waiting := by
  obtain ⟨hlegal, hreset⟩ := run_keeps (P := fun u => u.cfg.legal ∧ u.env.resetLine = false)
    (fun u v ⟨hc, hr⟩ hstep => ⟨configNeverChanges u v hstep ▸ hc, step_keeps_noReset hr hstep⟩)
    ⟨h.legal, h.noReset⟩ hrun
  exact ⟨hlegal, hreset, hs, hq⟩

/-- The machine still runs after a step, with the sessions that it leaves. -/
theorem AtPhase.after_step {s t : State} {p : Phase} {top inner : Session} {outer waiting : List Session}
    (h : AtPhase s p top outer) (hstep : step s = .next t) (hs : t.sessions = inner :: waiting) :
    AtPhase t inner.phase inner waiting :=
  h.after_run (k := 1) (run_succ_of_next hstep) hs rfl

end Sys2Proof.Safety

namespace Sys2Proof.Machine

open Sys2Proof.Safety

/-! ### One record -/

section Records
variable {s : State} {top : Session} {outer : List Session} {ctx : Context} {rest : List Context}

/-- R110, R219: `abort` flags its error, and then the decode ends. -/
theorem State.raise_endDecode_eq (hs : s.sessions = top :: outer) (hx : s.ctxs = ctx :: rest) (e : ErrorKind) :
    (s.raise e).endDecode = { s with
      errCur := s.errCur ||| errorMask s.cfg e, ctxs := rest, sessions := { top with phase := .exit } :: outer } := by
  rw [State.endDecode_eq (s := s.raise e) hs hx]
  rfl

/-- R15: a record that flags an error and is advanced past. -/
theorem State.raise_advanceCur_eq (hx : s.ctxs = ctx :: rest) (e : ErrorKind) (n : Nat) :
    (s.raise e).advanceCur n = { s with
      errCur := s.errCur ||| errorMask s.cfg e, ctxs := { ctx with cur := ctx.cur + n } :: rest } := by
  rw [State.advanceCur_eq (s := s.raise e) hx]
  rfl

/-- R121: a truncated PING ends the decode and does nothing else. -/
theorem exec_ping_truncated (hs : s.sessions = top :: outer) (hx : s.ctxs = ctx :: rest) :
    exec (.ping none) s = .next { s with ctxs := rest, sessions := { top with phase := .exit } :: outer } :=
  congrArg Host.Outcome.next (State.endDecode_eq hs hx)

/-- R121: a truncated RESET ends the decode and leaves the countdown. -/
theorem exec_reset_truncated (hs : s.sessions = top :: outer) (hx : s.ctxs = ctx :: rest) :
    exec (.reset none) s = .next { s with ctxs := rest, sessions := { top with phase := .exit } :: outer } :=
  congrArg Host.Outcome.next (State.endDecode_eq hs hx)

/-- R121, R124: a truncated PONG is flagged, and then ends the decode. -/
theorem exec_pongRx_truncated (hs : s.sessions = top :: outer) (hx : s.ctxs = ctx :: rest) :
    exec (.pongRx none) s = .next { s with
      errCur := s.errCur ||| errorMask s.cfg .unexpectedCmd, ctxs := rest, sessions := { top with phase := .exit } :: outer } :=
  congrArg Host.Outcome.next (State.raise_endDecode_eq hs hx _)

end Records

/-- Settles O13: NOP is decoded under every opcode map, and moves the cursor only. -/
theorem nopOnlyAdvances : Obligations.NopOnlyAdvances :=
  ⟨decode_opcNop, fun _ _ _ hx => congrArg Host.Outcome.next (State.advanceCur_eq hx 1)⟩

/-- Settles O14: the request is `Request.pong`. -/
theorem pingOpensPongSession : Obligations.PingOpensPongSession :=
  fun _ e => ⟨Request.pong [e], rfl, rfl, rfl⟩

/-- Settles O15: with no byte to take, each of the three opcodes decodes to its truncated form. -/
theorem truncatedRecordsEndDecode : Obligations.TruncatedRecordsEndDecode := by
  refine ⟨fun c ⟨_, hop, _⟩ => ⟨decode_opcPing hop [], decode_opcPong hop [], decode_opcReset hop []⟩,
    fun s top outer ctx rest hs hx => ?_⟩
  exact ⟨exec_ping_truncated hs hx, exec_reset_truncated hs hx, exec_pongRx_truncated hs hx⟩

/-- Settles O16: a whole PONG is flagged and advanced past, and a truncated one ends the decode. -/
theorem receivedPongFlagged : Obligations.ReceivedPongFlagged :=
  ⟨fun _ b tail ⟨_, hop, _⟩ => decode_opcPong hop (b :: tail),
    fun _ _ _ _ hx => congrArg Host.Outcome.next (State.raise_advanceCur_eq hx _ 2),
    fun _ _ _ _ _ hs hx => exec_pongRx_truncated hs hx⟩

/-- Settles O17: a whole RESET writes its byte and is advanced past, and a truncated one ends the decode. -/
theorem resetStoresCountdown : Obligations.ResetStoresCountdown :=
  ⟨fun _ n tail ⟨_, hop, _⟩ => decode_opcReset hop (n :: tail),
    fun s n _ _ hx => congrArg Host.Outcome.next (State.advanceCur_eq (s := s.setRstCnt n) hx 2),
    fun _ _ _ _ _ hs hx => exec_reset_truncated hs hx⟩

/-- Settles O18: a byte that is none of the five opcodes aborts the decode. -/
theorem unknownOpcodeAborts : Obligations.UnknownOpcodeAborts :=
  ⟨fun _ _ tail hop => decode_unknown hop tail,
    fun _ _ _ _ _ _ hs hx => congrArg Host.Outcome.next (State.raise_endDecode_eq hs hx _)⟩

/-- Settles O19: a received STATUS aborts the decode. -/
theorem receivedStatusAborts : Obligations.ReceivedStatusAborts :=
  fun _ _ _ _ _ hs hx => congrArg Host.Outcome.next (State.raise_endDecode_eq hs hx _)

/-! ### The steps of a session that a PING opens -/

section Steps
variable {s : State} {top : Session} {outer : List Session} {ctx : Context} {rest : List Context}

/-- R120, R123: the step of a whole PING in the record loop. -/
theorem step_of_ping (h : AtPhase s (.decode .records) top outer) (hx : s.ctxs = ctx :: rest) {e : Byte} {tail : List Byte}
    (hb : ctx.stream = some (opcPing :: e :: tail)) : step s = .next (s.openSession (Request.pong [e])) := by
  obtain ⟨-, hop, -, -⟩ := h.legal
  have hlen : tail.length + 1 + 1 = ctx.rxLen - ctx.cur := Memory.readBytes_length hb
  exact step_of_record h.legal h.noReset h.sessions h.phase hx (by omega) hb (decode_opcPing hop (e :: tail))

/-- R170, R171: the step at ENTER. -/
theorem step_of_enter (h : AtPhase s .enter top outer) : step s = .next { s with
    depth := s.depth + 1
    sessions := { top with phase := if s.depth + 1 > maxDepth then .reject else .encode } :: outer } := by
  rw [step_of_session h.legal h.noReset h.sessions, sessionAction, h.phase]
  exact congrArg Host.Outcome.next (State.setPhase_eq (s := s.setDepth (s.depth + 1)) h.sessions _)

/-- R171: within the depth bound, ENTER leads to ENCODE. -/
theorem step_of_enter_accepted (h : AtPhase s .enter top outer) (hd : s.depth + 1 ≤ maxDepth) :
    step s = .next { s with depth := s.depth + 1, sessions := { top with phase := .encode } :: outer } := by
  rw [step_of_enter h, if_neg (Nat.not_lt.2 hd)]

/-- R172: beyond the depth bound, ENTER leads to REJECT. -/
theorem step_of_enter_rejected (h : AtPhase s .enter top outer) (hd : maxDepth < s.depth + 1) :
    step s = .next { s with depth := s.depth + 1, sessions := { top with phase := .reject } :: outer } := by
  rw [step_of_enter h, if_pos hd]

/-- R172: the step at REJECT. -/
theorem step_of_reject (h : AtPhase s .reject top outer) : step s = .next { s with
    errCur := s.errCur ||| errorMask s.cfg .depth
    depth := s.depth - 1
    sessions := { top with phase := .done } :: outer } := by
  rw [step_of_session h.legal h.noReset h.sessions, sessionAction, h.phase]
  exact congrArg Host.Outcome.next (State.setPhase_eq (s := (s.raise .depth).setDepth (s.depth - 1)) h.sessions _)

/-- R153, R173: the step at ENCODE runs the record of the request. -/
theorem step_of_encode (h : AtPhase s .encode top outer) :
    step s = exec (txInstr s.cfg top.request.cmd top.request.status top.request.data) s := by
  rw [step_of_session h.legal h.noReset h.sessions, sessionAction, h.phase]
  rfl

/-- R9, R150, R192: a PONG request that fits builds its frame, because STATUS has another opcode. -/
theorem exec_txInstr_pong (h : s.cfg.opcodes.Nodup) (p : StatusRecord) {data : List Byte} (hl : 3 + data.length ≤ maxFrame) :
    exec (txInstr s.cfg opcPong p data) s = .next (s.buildFrame (opcPong :: data) (3 + data.length)) := by
  obtain ⟨-, ⟨-, hstatus, -⟩, -⟩ := s.cfg.nodup_opcodes_iff.1 h
  rw [txInstr, if_neg hstatus.symm, if_pos rfl]
  exact execPongTx_builds data s hl

/-- R142 to R144, R153: everything that building a frame changes. -/
theorem State.buildFrame_eq (hs : s.sessions = top :: outer) (record : List Byte) (len : Nat) :
    s.buildFrame record len = { s with
      tx := s.tx.writeBytes 0 (s.txHeader ++ record)
      txLen := len
      lastTx := s.lastTx + 1
      sessions := { top with phase := .transmit } :: outer } :=
  State.setPhase_eq (s := (s.storeFrame (s.txHeader ++ record) len).setLastTx (s.lastTx + 1)) hs _

end Steps

/-! ### Runs of a session -/

section Runs
variable {s : State} {top : Session} {outer : List Session}

/-- R172: beyond the depth bound, ENTER and REJECT flag the depth error and take the increment back. -/
theorem run_of_deepEntry (h : AtPhase s .enter top outer) (hd : maxDepth < s.depth + 1) :
    run 2 s = .next { s with
      errCur := s.errCur ||| errorMask s.cfg .depth, sessions := { top with phase := .done } :: outer } := by
  have henter := step_of_enter_rejected h hd
  have hreject := step_of_reject (h.after_step henter rfl)
  rw [run_succ_of_next henter, run_succ_of_next hreject]
  rfl

/-- R173 to R175, R177: the request's record builds its frame, which goes out; no packet is pending, and the session is done. -/
theorem run_of_builtFrame (h : AtPhase s .encode top outer) {record : List Byte} {len : Nat} (hlen : len = 2 + record.length)
    (hmax : len ≤ maxFrame)
    (hbuild : exec (txInstr s.cfg top.request.cmd top.request.status top.request.data) s = .next (s.buildFrame record len))
    {answer : TransmitAnswer} {answers : List TransmitAnswer} (ha : s.env.transmitAnswers = answer :: answers)
    {polls : List Bool} (hp : s.env.readyAnswers = false :: polls) :
    run 4 s = .next { s with
      env := { s.env with
        transmitAnswers := answers, readyAnswers := polls, sent := s.env.sent ++ [s.txHeader ++ record] }
      tx := s.tx.writeBytes 0 (s.txHeader ++ record)
      txLen := len
      lastTx := s.lastTx + 1
      errCur := if answer = .fail then s.errCur ||| errorMask s.cfg .cannotDeliver else s.errCur
      depth := s.depth - 1
      sessions := { top with phase := .done } :: outer } := by
  have hbytes := s.buildFrame_bytes record len hlen
  have hencode := (step_of_encode h).trans hbuild
  rw [State.buildFrame_eq h.sessions] at hbytes hencode
  have hatTransmit := h.after_step hencode rfl
  have htransmit := step_of_transmit hatTransmit hmax
  rw [State.txFrame_of_readBytes hbytes, State.transmitted_eq rfl, Env.drawTransmit_of_supplied ha] at htransmit
  have hatPoll := hatTransmit.after_step htransmit rfl
  have hpoll := (pollAndReceive _ _ _).1 hatPoll false polls hp
  have hexit := (exitRestoresDepth _ _ _).1 (hatPoll.after_step hpoll rfl)
  rw [run_succ_of_next hencode, run_succ_of_next htransmit, run_succ_of_next hpoll, run_succ_of_next hexit]
  rfl

/-- R150, R178, R192: a PONG session within the depth bound, with no packet pending. -/
theorem run_of_pongSession (h : AtPhase s .enter top outer) (hd : s.depth + 1 ≤ maxDepth) (hcmd : top.request.cmd = opcPong)
    (hmax : 3 + top.request.data.length ≤ maxFrame) {answer : TransmitAnswer} {answers : List TransmitAnswer}
    (ha : s.env.transmitAnswers = answer :: answers) {polls : List Bool} (hp : s.env.readyAnswers = false :: polls) :
    run 5 s = .next { s with
      env := { s.env with
        transmitAnswers := answers
        readyAnswers := polls
        sent := s.env.sent ++ [s.txHeader ++ opcPong :: top.request.data] }
      tx := s.tx.writeBytes 0 (s.txHeader ++ opcPong :: top.request.data)
      txLen := 3 + top.request.data.length
      lastTx := s.lastTx + 1
      errCur := if answer = .fail then s.errCur ||| errorMask s.cfg .cannotDeliver else s.errCur
      sessions := { top with phase := .done } :: outer } := by
  have henter := step_of_enter_accepted h hd
  have hatEncode := h.after_step henter rfl
  obtain ⟨-, hop, -, -⟩ := hatEncode.legal
  have hbuild := exec_txInstr_pong hop top.request.status hmax
  rw [← hcmd] at hbuild
  have hlen : 3 + top.request.data.length = 2 + (top.request.cmd :: top.request.data).length := by
    rw [List.length_cons]; omega
  rw [run_succ_of_next henter, run_of_builtFrame hatEncode hlen hmax hbuild ha hp, hcmd]
  rfl

end Runs

/-! ### A whole PING -/

section Ping
variable {s t : State} {top : Session} {outer : List Session} {ctx : Context} {rest : List Context} {e : Byte}
  {tail : List Byte}

/-- R49, R123: a PING whose session is done, with the receive frames as they were, goes on after its record. -/
theorem run_of_ping (h : AtPhase s (.decode .records) top outer) (hx : s.ctxs = ctx :: rest)
    (hb : ctx.stream = some (opcPing :: e :: tail)) {k : Nat} (hrun : run k (s.openSession (Request.pong [e])) = .next t)
    {inner : Session} (hs : t.sessions = inner :: s.sessions) (hp : inner.phase = .done) (hctxs : t.ctxs = s.ctxs) :
    run (k + 2) s = .next { t with sessions := s.sessions, ctxs := { ctx with cur := ctx.cur + 2 } :: rest } := by
  have hping := step_of_ping h hx hb
  have hatDone := (h.after_step hping rfl).after_run hrun hs hp
  have hwaiting : s.sessions ≠ [] := by simp [h.sessions]
  have hdone := (exitRestoresDepth _ _ _).2.2 hatDone hwaiting ctx rest (hctxs.trans hx)
  rw [run_succ_of_next hping, run_add_of_next hrun, run_succ_of_next hdone, run_zero]

end Ping

/-- Settles O37: the PING's session enters beyond the depth bound. -/
theorem pingAtTheBoundSendsNothing : Obligations.PingAtTheBoundSendsNothing := by
  intro s top outer ctx rest e tail h hx hb hd
  have hatEnter := h.after_step (step_of_ping h hx hb) rfl
  have hdeep : maxDepth < s.depth + 1 := by simp [hd, maxDepth]
  exact run_of_ping h hx hb (run_of_deepEntry hatEnter hdeep) rfl rfl rfl

/-- Settles O36: the PING's session is a PONG session within the depth bound. -/
theorem pingRepliesAndResumes : Obligations.PingRepliesAndResumes := by
  intro s top outer ctx rest e tail answers polls h hx hb hd ha hp
  have hatEnter := h.after_step (step_of_ping h hx hb) rfl
  have hfits : 3 + [e].length ≤ maxFrame := by simp [maxFrame]
  exact ⟨_, run_of_ping h hx hb (run_of_pongSession hatEnter hd rfl hfits ha hp) rfl rfl rfl,
    rfl, rfl, rfl, rfl, rfl, rfl, rfl, rfl, rfl, rfl⟩

end Sys2Proof.Machine
end

section
/-! PROOFS. The encoder and its records: which fields of a STATUS the bits of its word select (R147, R149), the record a request
selects (R153), what PONG and an unsupported command do (R150 to R152), and a whole STATUS session of the host (R191). -/
namespace Sys2Proof

/-! ### The status word -/

/-- R145: merging the error bit ORs a mask, which does not depend on the word, into it. -/
theorem statusBit_mergeErrorBit (errs sw : Half) (j : Fin 16) :
    statusBit (mergeErrorBit errs sw) j = (statusBit sw j || statusBit (mergeErrorBit errs 0) j) := by
  simp [statusBit, mergeErrorBit]

/-- R14: toggling a bit leaves every other bit alone. -/
theorem statusBit_toggle_of_ne (sw : Half) {i j : Fin 16} (h : i ≠ j) :
    statusBit (sw ^^^ (1#16 <<< i.val)) j = statusBit sw j := by
  have hmask : (1#16 <<< i.val).getLsbD j.val = false := by
    have hne : ¬ i.val = j.val := fun hij => h (Fin.ext hij)
    rw [← BitVec.twoPow_eq, BitVec.getLsbD_twoPow, decide_eq_false hne, Bool.and_false]
  rw [statusBit, BitVec.getLsbD_xor, hmask, Bool.xor_false, statusBit]

/-- R145, R147: toggling a bit of the status word leaves every other bit of the serialised word alone. -/
theorem statusBit_mergeErrorBit_toggle (errs sw : Half) {i j : Fin 16} (h : i ≠ j) :
    statusBit (mergeErrorBit errs (sw ^^^ (1#16 <<< i.val))) j = statusBit (mergeErrorBit errs sw) j := by
  rw [statusBit_mergeErrorBit, statusBit_toggle_of_ne sw h, ← statusBit_mergeErrorBit]

/-- Settles O6: each field is selected by its own bit of the serialised word, which another bit's toggling leaves alone. -/
theorem statusBitTogglesOneField : Obligations.StatusBitTogglesOneField := by
  intro c errs p i w w'
  refine ⟨fun h => ?_, fun h => ?_, fun h => ?_, fun h => ?_⟩ <;>
    simp only [w, w', statusWire, statusBit_mergeErrorBit_toggle errs p.sw h]

/-- Settles O5: the formula is `statusLength` of the serialised word. -/
theorem statusFrameLength : Obligations.StatusFrameLength :=
  fun c errs p => ⟨(Machine.statusLength_encode c errs p).symm, statusLength_bounds c (mergeErrorBit errs p.sw)⟩

/-! ### The record of a request -/

/-- R153: the command of STATUS selects STATUS. -/
theorem txInstr_status {c : Config} {cmd : Byte} (h : cmd = c.opcStatus) (p : StatusRecord) (data : List Byte) :
    txInstr c cmd p data = .statusTx p :=
  if_pos h

/-- R9, R153: the command of PONG selects PONG, because STATUS has another opcode. -/
theorem txInstr_pong {c : Config} (h : c.opcodes.Nodup) (p : StatusRecord) (data : List Byte) :
    txInstr c opcPong p data = .pongTx data := by
  obtain ⟨-, ⟨-, hstatus, -⟩, -⟩ := c.nodup_opcodes_iff.1 h
  rw [txInstr, if_neg hstatus.symm, if_pos rfl]

/-- R151, R153: any other command is unsupported. -/
theorem txInstr_unsupported {c : Config} {cmd : Byte} (h : unsupportedCommand c cmd) (p : StatusRecord) (data : List Byte) :
    txInstr c cmd p data = .unsupportedTx cmd := by
  obtain ⟨hstatus, hpong⟩ := h
  rw [txInstr, if_neg hstatus, if_neg hpong]

end Sys2Proof

namespace Sys2Proof.Machine

open Sys2Proof.Safety

/-- Settles O10: the step at ENCODE runs `txInstr` of the request, by its three cases. -/
theorem stepRunsRequestedEncode : Obligations.StepRunsRequestedEncode := by
  intro s top outer h
  obtain ⟨-, hop, -, -⟩ := h.legal
  refine ⟨fun hcmd => ?_, fun hcmd => ?_, fun hstatus hpong => ?_⟩
  · rw [step_of_encode h, txInstr_status hcmd]
  · rw [step_of_encode h, hcmd, txInstr_pong hop]
  · rw [step_of_encode h, txInstr_unsupported ⟨hstatus, hpong⟩]

/-! ### PONG and unsupported commands -/

/-- R151, R152, R173: everything that an aborted encode changes. -/
theorem State.abortEncode_eq {s : State} {top : Session} {outer : List Session} (hs : s.sessions = top :: outer) (e : ErrorKind) :
    s.abortEncode e = { s with
      errCur := s.errCur ||| errorMask s.cfg e, sessions := { top with phase := .poll } :: outer } :=
  State.setPhase_eq (s := s.raise e) hs _

/-- Settles O23: 30 payload bytes and the three before them do not fit, and the encode aborts. -/
theorem oversizePongAborts : Obligations.OversizePongAborts := by
  intro s data top outer hs hl
  have hover : maxFrame < 3 + data.length := by unfold maxFrame; omega
  exact (execPongTx_aborts data s hover).trans (congrArg Host.Outcome.next (State.abortEncode_eq hs _))

/-- Settles O24: the encode of any other command aborts. -/
theorem unsupportedCommandAborts : Obligations.UnsupportedCommandAborts :=
  fun _ _ _ _ hs => congrArg Host.Outcome.next (State.abortEncode_eq hs _)

/-- Settles O22: a PONG that fits builds the frame of its header and record; one that does not aborts. -/
theorem pongBuildsItsFrame : Obligations.PongBuildsItsFrame := by
  intro s data top outer hs
  refine ⟨fun hfits => ?_, fun hover => ⟨_, execPongTx_aborts data s hover, State.abortEncode_errCur _ _⟩⟩
  have hlen : 3 + data.length = 2 + (opcPong :: data).length := by rw [List.length_cons]; omega
  have hbytes := s.buildFrame_bytes (opcPong :: data) (3 + data.length) hlen
  refine ⟨_, execPongTx_builds data s hfits, State.buildFrame_txLen _ _ _, ?_, State.buildFrame_lastTx _ _ _,
    State.buildFrame_sessions_cons _ _ _ _ _ hs, State.buildFrame_errCur _ _ _⟩
  rw [State.buildFrame_txLen, hbytes]
  rfl

/-! ### A whole STATUS session -/

/-- R149: a STATUS fits the payload ceiling. -/
theorem statusLength_le_maxFrame (c : Config) (sw : Half) : statusLength c sw ≤ maxFrame := by
  obtain ⟨-, hmax⟩ := statusLength_bounds c sw
  unfold maxFrame
  omega

/-- R145, R174, R175, R178: a STATUS session within the depth bound, with no packet pending. -/
theorem run_of_statusSession {s : State} {top : Session} {outer : List Session} (h : AtPhase s .enter top outer)
    (hd : s.depth + 1 ≤ maxDepth) (hcmd : top.request.cmd = s.cfg.opcStatus) {answer : TransmitAnswer}
    {answers : List TransmitAnswer} (ha : s.env.transmitAnswers = answer :: answers) {polls : List Bool}
    (hp : s.env.readyAnswers = false :: polls) :
    let record := encode s.cfg s.anyError (.statusTx top.request.status)
    run 5 s = .next { s with
      env := { s.env with
        transmitAnswers := answers, readyAnswers := polls, sent := s.env.sent ++ [s.txHeader ++ record] }
      tx := s.tx.writeBytes 0 (s.txHeader ++ record)
      txLen := statusLength s.cfg (mergeErrorBit s.anyError top.request.status.sw)
      lastTx := s.lastTx + 1
      errCur := if answer = .fail then s.errCur ||| errorMask s.cfg .cannotDeliver else s.errCur
      sessions := { top with phase := .done } :: outer } := by
  intro record
  have henter := step_of_enter_accepted h hd
  have hatEncode := h.after_step henter rfl
  have hlen := statusLength_encode s.cfg s.anyError top.request.status
  have hfits := statusLength_le_maxFrame s.cfg (mergeErrorBit s.anyError top.request.status.sw)
  rw [run_succ_of_next henter, run_of_builtFrame hatEncode hlen hfits ?build ha hp]
  case build => rw [txInstr_status hcmd]; exact execStatusTx_builds _ _
  rfl

/-- Settles O38: the host's operation opens a session at depth 0, which runs to DONE and returns to the host. -/
theorem statusSessionSendsOneFrame : Obligations.StatusSessionSendsOneFrame := by
  intro s r ops answer answers polls hc hr ⟨hs, hctxs, hdepth⟩ ho hcmd ha hp
  have hstart := step_of_hostOp hc hr hs ho
  have hatEnter : AtPhase ((s.setEnv { s.env with hostOps := ops }).openSession r) .enter { phase := .enter, request := r } [] :=
    ⟨hc, hr, congrArg (_ :: ·) hs, rfl⟩
  have hbound : s.depth + 1 ≤ maxDepth := by simp [hdepth, maxDepth]
  have hsession := run_of_statusSession hatEnter hbound hcmd ha hp
  have hdone := step_of_doneHost (hatEnter.after_run hsession rfl rfl)
  have hrun := (run_succ_of_next hstart).trans ((run_add_of_next hsession 1).trans (run_succ_of_next hdone))
  exact ⟨_, hrun, ⟨rfl, hctxs, hdepth⟩, rfl, rfl, rfl, rfl, rfl, rfl, rfl⟩

end Sys2Proof.Machine
end

section
/-! PROOFS. The Session Guard at ENTER: the depth bound decides (R170, R171), and an entry beyond it returns with the depth error
flagged and nothing else of the block used (R172). -/
namespace Sys2Proof.Machine

open Sys2Proof.Safety

/-- Settles O31: the two cases of `step_of_enter`. -/
theorem enterIncrementsDepth : Obligations.EnterIncrementsDepth :=
  fun _ _ _ h => ⟨step_of_enter_rejected h, step_of_enter_accepted h⟩

/-- Settles O32: ENTER and REJECT lead to DONE, which returns to the host or to the PING of the decode outside. -/
theorem deepEntryIsRejected : Obligations.DeepEntryIsRejected := by
  intro s top outer h hd
  have hrejected := run_of_deepEntry h hd
  have hatDone := h.after_run (q := .done) hrejected rfl rfl
  cases outer with
  | nil =>
    have hdone := run_succ_of_next (k := 0) (step_of_doneHost hatDone)
    exact ⟨_, (run_add_of_next hrejected 1).trans hdone, rfl, rfl, rfl, rfl, rfl, rfl, rfl, rfl, rfl, rfl, rfl, rfl⟩
  | cons next waiting =>
    have hdone := run_succ_of_next (k := 0) (step_of_donePing hatDone)
    refine ⟨_, (run_add_of_next hrejected 1).trans hdone, ?_⟩
    simp

end Sys2Proof.Machine
end

section
/-! PROOFS. Every open session ends (R177, R179, R201). Each step of an open session lowers a bound of the steps that are left:
the states that its sessions still pass, and a price for each unread byte of their frames, by how many sessions wait outside. Two
bytes are the least a PING takes, so two bytes pay for the session that a PING opens. -/
namespace Sys2Proof.Machine

/-! ### What a step of an open session leaves of the environment -/

section Environment
variable {s t : State} {top : Session} {outer : List Session}

theorem Env.drawTransmit_receiveAnswers (e : Env) : e.drawTransmit.2.receiveAnswers = e.receiveAnswers := by
  simp only [Env.drawTransmit]; split <;> rfl
theorem Env.drawReady_receiveAnswers (e : Env) : e.drawReady.2.receiveAnswers = e.receiveAnswers := by
  simp only [Env.drawReady]; split <;> rfl

/-- R195: RECEIVE takes at most the first delivery supplied. -/
theorem Env.drawReceive_receiveAnswers_suffix (e : Env) : e.drawReceive.2.receiveAnswers <:+ e.receiveAnswers := by
  simp only [Env.drawReceive]
  split
  · exact List.suffix_refl _
  · next hq => rw [hq]; exact List.suffix_cons _ _

/-- R202: while a session is open, the operations issued wait. -/
theorem Moves.hostOps_of_session (hm : Moves s t) (hr : s.env.resetLine = false) (hs : s.sessions = top :: outer) :
    t.env.hostOps = s.env.hostOps := by
  cases hm with
  | reset h => simp [h] at hr
  | host _ hnil => simp [hnil] at hs
  | _ => simp [Env.drawTransmit_hostOps, Env.drawReady_hostOps, Env.drawReceive_hostOps]

/-- R195: while a session is open, no delivery is supplied that was not there before. -/
theorem Moves.receiveAnswers_of_session (hm : Moves s t) (hr : s.env.resetLine = false) (hs : s.sessions = top :: outer) :
    t.env.receiveAnswers <:+ s.env.receiveAnswers := by
  cases hm with
  | reset h => simp [h] at hr
  | host _ hnil => simp [hnil] at hs
  | receive => simpa using s.env.drawReceive_receiveAnswers_suffix
  | _ => simp [Env.drawTransmit_receiveAnswers, Env.drawReady_receiveAnswers]

end Environment

end Sys2Proof.Machine

namespace Sys2Proof.Safety

open Sys2Proof.Machine

/-! ### The steps a state has left -/

/-- R170: the most states that a session passes from a state on to its return, that state itself among them. -/
def phaseSteps : Phase → Nat
  | .enter => 9
  | .encode => 8
  | .transmit => 7
  | .poll => 6
  | .receive => 5
  | .decode .gates => 4
  | .decode .records => 3
  | .reject | .exit => 2
  | .done => 1

/-- R62, R123: the steps allowed for one unread byte when `waiting` sessions wait outside its decode. Two bytes must cover a PING,
whose session has 9 states and a frame of at most 32 bytes to receive (`sessionSteps_enter_lt`); the third session is rejected and
receives none (R172). -/
def stepsPerByte : (waiting : Nat) → Nat
  | 0 => 85
  | 1 => 5
  | _ + 2 => 0

/-- R109: the unread bytes of a frame. -/
def unread (ctx : Context) : Nat := ctx.rxLen - ctx.cur

/-- R73, R109: the bytes that a session at `p` can still read: a whole frame as long as it has received none. -/
def ownUnread : Phase → List Context → Nat
  | .enter, _ | .encode, _ | .transmit, _ | .poll, _ | .receive, _ => maxFrame
  | .decode _, ctxs => ctxs.head?.elim 0 unread
  | .reject, _ | .exit, _ | .done, _ => 0

/-- R29, R123: the steps left to the decodes that wait at a PING, when its two bytes count as read. -/
def waitingSteps : List Context → Nat
  | [] => 0
  | ctx :: rest => phaseSteps (.decode .records) + stepsPerByte rest.length * (unread ctx - 2) + waitingSteps rest

/-- The steps left to a session at `p` inside `waiting` others, with the sessions that it may open. -/
def sessionSteps (waiting : Nat) (p : Phase) (ctxs : List Context) : Nat :=
  phaseSteps p + stepsPerByte waiting * ownUnread p ctxs

/-- R177, R179: a bound of the steps until the block is idle. -/
def stepsLeft (s : State) : Nat :=
  match s.sessions with
  | [] => 0
  | top :: outer => sessionSteps outer.length top.phase s.ctxs + waitingSteps (outerContexts s)

/-- R170: every state of a session takes a step. -/
theorem phaseSteps_pos (p : Phase) : 0 < phaseSteps p := by
  cases p with
  | decode d => cases d <;> decide
  | _ => decide

/-- R179: at most one session waits outside an accepted one, whose bytes have a price. -/
theorem stepsPerByte_pos {n : Nat} (hn : n ≤ 1) : 0 < stepsPerByte n := by
  match n with
  | 0 | 1 => decide

/-- R123: the two bytes of a PING pay for the session that it opens. -/
theorem sessionSteps_enter_lt {n : Nat} (hn : n ≤ 1) (ctxs : List Context) :
    sessionSteps (n + 1) .enter ctxs < stepsPerByte n * 2 := by
  match n with
  | 0 | 1 => simp only [sessionSteps, ownUnread]; decide

/-- R30: a received frame has at most 32 bytes. -/
theorem ContextOk.unread_le {ctx : Context} (h : ContextOk ctx) : unread ctx ≤ maxFrame :=
  (Nat.sub_le _ _).trans h.len

/-- R73: the bytes that a session can still read are those of one frame. -/
theorem ownUnread_le {ctxs : List Context} (h : ∀ ctx ∈ ctxs, ContextOk ctx) (p : Phase) : ownUnread p ctxs ≤ maxFrame := by
  cases p with
  | decode =>
    cases ctxs with
    | nil => exact Nat.zero_le _
    | cons ctx rest => exact (h ctx (by simp)).unread_le
  | reject | exit | done => exact Nat.zero_le _
  | _ => exact Nat.le_refl _

theorem stepsLeft_nil {s : State} (hs : s.sessions = []) : stepsLeft s = 0 := by
  simp only [stepsLeft, hs]

section Steps
variable {s t : State} {top : Session} {outer : List Session}

theorem stepsLeft_cons {p : Phase} (hs : s.sessions = top :: outer) (hp : top.phase = p) :
    stepsLeft s = sessionSteps outer.length p s.ctxs + waitingSteps (outerContexts s) := by
  simp only [stepsLeft, hs, hp]

/-- R29: a session that is not decoding has no context of its own. -/
theorem outerContexts_of_not_decoding (hs : s.sessions = top :: outer) (hd : decoding top.phase = false) :
    outerContexts s = s.ctxs := by
  simp [outerContexts, hs, hd]

/-- R49: a step after which the same sessions wait outside leaves the contexts of their decodes. -/
theorem Inv.outerContexts_eq {top' : Session} (h : Inv s) (hm : Moves s t) (hr : s.env.resetLine = false)
    (hs : s.sessions = top :: outer) (hp : top.phase ≠ .done) (ht : t.sessions = top' :: outer) :
    outerContexts t = outerContexts s := by
  have hlen : (outerContexts t).length = (outerContexts s).length := by
    rw [(h.moves hm).length_outerContexts ht, h.length_outerContexts hs]
  exact (List.suffix_of_suffix_length_le (outerContexts_suffix t) (moves_keep_outerContexts hm hr hs hp) hlen.le).eq_of_length hlen

/-! ### The step -/

/-- R170: the innermost session goes on to a state with fewer states after it, and gains no byte to read. -/
theorem Inv.stepsLeft_rephase (h : Inv s) (hm : Moves s t) (hr : s.env.resetLine = false) {p q : Phase}
    (hs : s.sessions = top :: outer) (hq : top.phase = q) (ht : t.sessions = { top with phase := p } :: outer)
    (hlt : phaseSteps p < phaseSteps q) (hle : ownUnread p t.ctxs ≤ ownUnread q s.ctxs) : stepsLeft t < stepsLeft s := by
  have hp : top.phase ≠ .done := by
    rw [hq]
    rintro rfl
    exact absurd hlt (Nat.not_lt.2 (phaseSteps_pos p))
  rw [stepsLeft_cons hs hq, stepsLeft_cons ht rfl, h.outerContexts_eq hm hr hs hp ht]
  have hbytes : stepsPerByte outer.length * ownUnread p t.ctxs ≤ stepsPerByte outer.length * ownUnread q s.ctxs :=
    Nat.mul_le_mul_left _ hle
  simp only [sessionSteps]
  omega

section Decode
variable {ctx : Context} {rest : List Context}

/-- R108: the steps left in the record loop. -/
theorem stepsLeft_of_records (hs : s.sessions = top :: outer) (hp : top.phase = .decode .records) (hx : s.ctxs = ctx :: rest) :
    stepsLeft s = phaseSteps (.decode .records) + stepsPerByte outer.length * unread ctx + waitingSteps rest := by
  rw [stepsLeft_cons hs hp, outerContexts_of_decoding hs (by rw [hp]; rfl), hx]
  rfl

/-- R122, R124, R126: a record that opens no session is read. -/
theorem Inv.stepsLeft_advanceCur (h : Inv s) (hs : s.sessions = top :: outer) (hp : top.phase = .decode .records)
    (hx : s.ctxs = ctx :: rest) {u : State} (hus : u.sessions = s.sessions) (hux : u.ctxs = s.ctxs) {n : Nat} (hn : 0 < n)
    (hc : ctx.cur + n ≤ ctx.rxLen) : stepsLeft (u.advanceCur n) < stepsLeft s := by
  have hctxs := State.advanceCur_ctxs_cons u n ctx rest (hux.trans hx)
  rw [stepsLeft_of_records hs hp hx, stepsLeft_of_records (by simpa [hus] using hs) hp hctxs]
  have hless : unread { ctx with cur := ctx.cur + n } < unread ctx := by simp only [unread]; omega
  have hout := (h.nesting_cons hs).outer_le_one (by rw [hp]; rfl)
  have hbytes := Nat.mul_lt_mul_of_pos_left hless (stepsPerByte_pos hout)
  omega

/-- R123: a PING opens its session, and its two bytes count as read. -/
theorem Inv.stepsLeft_openSession (h : Inv s) (hs : s.sessions = top :: outer) (hp : top.phase = .decode .records)
    (hx : s.ctxs = ctx :: rest) (hc : ctx.cur + 2 ≤ ctx.rxLen) (r : Request) : stepsLeft (s.openSession r) < stepsLeft s := by
  have ht : (s.openSession r).sessions = { phase := .enter, request := r } :: top :: outer := by simp [hs]
  have hlen : rest.length = outer.length := by simpa [hp, hx] using h.contexts_cons hs
  rw [stepsLeft_of_records hs hp hx, stepsLeft_cons (p := .enter) ht rfl, outerContexts_of_not_decoding ht rfl,
    State.openSession_ctxs, hx, waitingSteps, hlen, List.length_cons]
  have hout := (h.nesting_cons hs).outer_le_one (by rw [hp]; rfl)
  have hopened := sessionSteps_enter_lt hout (ctx :: rest)
  obtain ⟨k, hk⟩ := Nat.exists_eq_add_of_le' (show 2 ≤ unread ctx by simp only [unread]; omega)
  rw [hk, Nat.add_sub_cancel, Nat.mul_add]
  omega

end Decode

/-- R123, R170: the session of a PING returns to the decode outside it. -/
theorem Inv.stepsLeft_donePing {next : Session} (h : Inv s) (hs : s.sessions = top :: next :: outer) (hp : top.phase = .done) :
    stepsLeft ((s.setSessions (next :: outer)).advanceCur 2) < stepsLeft s := by
  obtain ⟨hwait, -, -, -⟩ := h.nesting_cons hs
  have hlen : s.ctxs.length = outer.length + 1 := by simpa [hp] using h.contexts_cons hs
  obtain ⟨ctx, rest, hx⟩ := List.exists_cons_of_length_eq_add_one hlen
  have hrest : rest.length = outer.length := by simpa [hx] using hlen
  have hctxs := State.advanceCur_ctxs_cons (s.setSessions (next :: outer)) 2 ctx rest hx
  have hread : unread { ctx with cur := ctx.cur + 2 } = unread ctx - 2 := (Nat.sub_sub _ _ _).symm
  rw [stepsLeft_of_records (outer := outer) (by simp) (hwait next (by simp)) hctxs, hread,
    stepsLeft_cons hs hp, outerContexts_of_not_decoding hs (by rw [hp]; rfl), hx, waitingSteps, hrest]
  have hdone : 0 < sessionSteps (next :: outer).length .done (ctx :: rest) := Nat.add_pos_left (phaseSteps_pos _) _
  omega

/-- R170, R177: each step of an open session lowers the steps left. -/
theorem Inv.stepsLeft_lt (h : Inv s) (hr : s.env.resetLine = false) (hs : s.sessions = top :: outer) (hm : Moves s t) :
    stepsLeft t < stepsLeft s := by
  have hm' := hm
  cases hm with
  | reset h => simp [h] at hr
  | idle _ hnil | host _ hnil => simp [hnil] at hs
  | enter _ top outer hs hp =>
    refine h.stepsLeft_rephase hm' hr hs hp (State.setPhase_sessions_cons _ _ _ _ hs) (by split <;> decide) ?_
    split
    · exact Nat.zero_le _
    · exact Nat.le_refl _
  | reject _ top outer hs hp | exit _ top outer hs hp =>
    exact h.stepsLeft_rephase hm' hr hs hp (State.setPhase_sessions_cons _ _ _ _ hs) (by decide) (Nat.zero_le _)
  | built _ top outer hs hp =>
    exact h.stepsLeft_rephase hm' hr hs hp (State.buildFrame_sessions_cons _ _ _ _ _ hs) (by decide) (Nat.le_refl _)
  | aborted _ top outer hs hp =>
    exact h.stepsLeft_rephase hm' hr hs hp (State.abortEncode_sessions_cons _ _ _ _ hs) (by decide) (Nat.le_refl _)
  | transmit _ top outer hs hp =>
    exact h.stepsLeft_rephase hm' hr hs hp (State.transmitted_sessions_cons _ _ _ _ hs) (by decide) (Nat.le_refl _)
  | poll _ top outer hs hp =>
    refine h.stepsLeft_rephase hm' hr hs hp (State.setPhase_sessions_cons _ _ _ _ hs) (by split <;> decide) ?_
    split
    · exact Nat.le_refl _
    · exact Nat.zero_le _
  | receive _ top outer hs hp =>
    exact h.stepsLeft_rephase hm' hr hs hp (State.setPhase_sessions_cons _ _ _ _ hs) (by decide)
      (ownUnread_le (h.moves hm').context (.decode .gates))
  | gateSilent _ top outer hs hp | gateVersion _ top outer hs hp | frameEnd _ top outer hs hp | unknown _ top outer hs hp
  | truncated _ top outer hs hp | truncatedPong _ top outer hs hp =>
    exact h.stepsLeft_rephase hm' hr hs hp (State.endDecode_sessions_cons _ _ _ hs) (by decide) (Nat.zero_le _)
  | accept _ top outer hs hp ctx rest hx _ _ _ _ _ sq =>
    refine h.stepsLeft_rephase hm' hr hs hp (State.acceptFrame_sessions_cons _ _ _ _ hs) (by decide) ?_
    obtain ⟨hgates, -⟩ := h.cursor top outer ctx rest hs hx
    rw [State.acceptFrame_ctxs_cons _ _ _ _ hx, hx]
    exact Nat.sub_le_sub_left (by rw [hgates hp]; exact Nat.zero_le 2) ctx.rxLen
  | nop _ top outer hs hp ctx rest hx hc | pong _ top outer hs hp ctx rest hx hc
  | countdown _ top outer hs hp ctx rest hx hc =>
    exact h.stepsLeft_advanceCur hs hp hx (by simp) (by simp) (by decide) hc
  | ping _ top outer hs hp ctx rest hx hc => exact h.stepsLeft_openSession hs hp hx hc _
  | doneHost _ top hs hp =>
    rw [stepsLeft_nil rfl, stepsLeft_cons hs hp]
    exact Nat.add_pos_left (Nat.add_pos_left (phaseSteps_pos _) _) _
  | donePing _ top next outer hs hp => exact h.stepsLeft_donePing hs hp

end Steps

/-! ### The bound -/

/-- R170: a session has the most states before it at ENTER. -/
theorem phaseSteps_le (p : Phase) : phaseSteps p ≤ 9 := by
  cases p with
  | decode d => cases d <;> decide
  | _ => decide

/-- R29, R179: at most two decodes wait. The most steps are left when none does and a frame of 32 bytes is still to come. -/
theorem sessionSteps_add_waitingSteps_le {l ctxs : List Context} (hl : l.length ≤ 2) (hw : ∀ ctx ∈ l, ContextOk ctx)
    (hx : ∀ ctx ∈ ctxs, ContextOk ctx) (p : Phase) : sessionSteps l.length p ctxs + waitingSteps l ≤ 2729 := by
  have hphase := phaseSteps_le p
  have hrecords : phaseSteps (.decode .records) = 3 := rfl
  have hown : ownUnread p ctxs ≤ 32 := ownUnread_le hx p
  have hwait : ∀ ctx ∈ l, unread ctx ≤ 32 := fun ctx hctx => (hw ctx hctx).unread_le
  match l with
  | [] => simp only [List.length_nil, sessionSteps, waitingSteps, stepsPerByte]; omega
  | [c] =>
    have hc := hwait c (by simp)
    simp only [List.length_cons, List.length_nil, sessionSteps, waitingSteps, stepsPerByte, hrecords]
    omega
  | [c, d] =>
    have hc := hwait c (by simp)
    have hd := hwait d (by simp)
    simp only [List.length_cons, List.length_nil, sessionSteps, waitingSteps, stepsPerByte, hrecords]
    omega

/-- R179: the steps left of a sound state. -/
theorem Inv.stepsLeft_le {s : State} (h : Inv s) : stepsLeft s ≤ 2729 := by
  cases hs : s.sessions with
  | nil => rw [stepsLeft_nil hs]; exact Nat.zero_le _
  | cons top outer =>
    obtain ⟨-, hlen, -, -⟩ := h.nesting_cons hs
    have hwaiting := h.length_outerContexts hs
    rw [stepsLeft_cons hs rfl, ← hwaiting]
    exact sessionSteps_add_waitingSteps_le (hwaiting ▸ hlen)
      (fun ctx hctx => h.context ctx ((outerContexts_suffix s).subset hctx)) h.context top.phase

/-! ### The run -/

/-- A sound state that runs, with no reset asked for and no overlong delivery supplied. -/
structure Undisturbed (s : State) : Prop where
  inv : Inv s
  legal : s.cfg.legal
  noReset : s.env.resetLine = false
  fits : ∀ f ∈ s.env.receiveAnswers, f.length ≤ maxFrame

/-- R201, R202: an open session of an undisturbed state takes a step towards its end, and the operations issued wait. -/
theorem Undisturbed.exists_step {s : State} (h : Undisturbed s) {top : Session} {outer : List Session}
    (hs : s.sessions = top :: outer) :
    ∃ t, step s = .next t ∧ Undisturbed t ∧ stepsLeft t < stepsLeft s ∧ t.env.hostOps = s.env.hostOps := by
  obtain ⟨hinv, hlegal, hreset, hfits⟩ := h
  obtain ⟨-, hanswers⟩ := refusalsNameTheirCause s hinv
  obtain ⟨t, hstep⟩ := hanswers hlegal hfits
  obtain ⟨-, hm⟩ := step_moves hstep
  have hsupplied := (hm.receiveAnswers_of_session hreset hs).subset
  exact ⟨t, hstep, ⟨hinv.moves hm, configNeverChanges s t hstep ▸ hlegal, step_keeps_noReset hreset hstep,
    fun f hf => hfits f (hsupplied hf)⟩, hinv.stepsLeft_lt hreset hs hm, hm.hostOps_of_session hreset hs⟩

/-- R177, R201: an undisturbed state becomes idle within the steps left. -/
theorem Undisturbed.exists_run {s : State} (h : Undisturbed s) :
    ∃ k t, k ≤ stepsLeft s ∧ run k s = .next t ∧ idle t ∧ t.env.hostOps = s.env.hostOps := by
  induction hn : stepsLeft s using Nat.strong_induction_on generalizing s with
  | h n ih =>
    cases hs : s.sessions with
    | nil => exact ⟨0, s, Nat.zero_le _, run_zero s, h.inv.idle hs, rfl⟩
    | cons top outer =>
      obtain ⟨u, hstep, hu, hlt, hops⟩ := h.exists_step hs
      obtain ⟨k, t, hk, hrun, hidle, ht⟩ := ih _ (hn ▸ hlt) hu rfl
      exact ⟨k + 1, t, hn ▸ Nat.lt_of_le_of_lt hk hlt, (run_succ_of_next hstep).trans hrun, hidle, ht.trans hops⟩

/-- Settles O58: the state is undisturbed, and fewer than 5000 steps are left. -/
theorem sessionsComplete : Obligations.SessionsComplete := by
  intro s h hlegal hreset hfits
  obtain ⟨k, t, hk, hrun, hidle, hops⟩ := Undisturbed.exists_run ⟨h, hlegal, hreset, hfits⟩
  exact ⟨k, t, (hk.trans h.stepsLeft_le).trans (by decide), hrun, hidle, hops⟩

end Sys2Proof.Safety
end

section
/-! PROOFS. The host's operations (R190): CYCLE_END, COUNTDOWN_TICK, the idle block with nothing issued (R243), and the operations
that wait while a session is open (R202). -/
namespace Sys2Proof.Machine

/-! ### CYCLE_END -/

/-- Settles O39: the operation issued is started, and it rotates the two masks. -/
theorem cycleEndRotatesErrors : Obligations.CycleEndRotatesErrors :=
  fun _ _ hc hr hs ho => step_of_hostOp hc hr hs ho

/-! ### COUNTDOWN_TICK -/

/-- R197: 0 means disabled. -/
theorem State.countdownTick_of_zero {s : State} (h : s.rstCnt = 0) : s.countdownTick = s.answerHost (.reboot false) := by
  rw [State.countdownTick, if_pos h]

/-- R197: a nonzero countdown is decremented, and it reaches zero exactly from 1. -/
theorem State.countdownTick_of_nonzero {s : State} (h : s.rstCnt ≠ 0) :
    s.countdownTick = (s.setRstCnt (s.rstCnt - 1)).answerHost (.reboot (decide (s.rstCnt = 1))) := by
  have hzero : s.rstCnt - 1 = 0 ↔ s.rstCnt = 1 := sub_eq_zero
  rw [State.countdownTick, if_neg h, decide_eq_decide.2 hzero]

/-- Settles O40: the operation issued is started, and the countdown is zero or not. -/
theorem countdownTickFiresAtZero : Obligations.CountdownTickFiresAtZero := by
  intro s ops hc hr hs ho
  rw [step_of_hostOp hc hr hs ho, State.hostOp]
  refine ⟨fun hzero => ?_, fun hnonzero => ?_⟩
  · exact congrArg _ (State.countdownTick_of_zero hzero)
  · have hless : (s.rstCnt - 1).toNat + 1 = s.rstCnt.toNat := by bv_omega
    exact ⟨_, congrArg _ (State.countdownTick_of_nonzero hnonzero), hless, rfl⟩

/-! ### The operations wait -/

theorem Env.drawTransmit_results (e : Env) : e.drawTransmit.2.results = e.results := by
  simp only [Env.drawTransmit]; split <;> rfl
theorem Env.drawReady_results (e : Env) : e.drawReady.2.results = e.results := by
  simp only [Env.drawReady]; split <;> rfl
theorem Env.drawReceive_results (e : Env) : e.drawReceive.2.results = e.results := by
  simp only [Env.drawReceive]; split <;> rfl

/-- R190: a step answers the host only by starting an operation of the idle block. -/
theorem Moves.results_of_session {s t : State} (hm : Moves s t) (hs : s.sessions ≠ []) : t.env.results = s.env.results := by
  cases hm with
  | host _ hnil => exact absurd hnil hs
  | _ => simp [Env.drawTransmit_results, Env.drawReady_results, Env.drawReceive_results]

/-- Settles O44: the idle block has nothing to start; with a session open, a reset leaves what is issued, and so does every step
of the session. -/
theorem hostOperationsWait : Obligations.HostOperationsWait := by
  refine ⟨fun s hc hr hs ho => ?_, fun s t hs hstep => ?_⟩
  · rw [step_of_idle hc hr hs, idleStep]
    simp only [ho]
  · obtain ⟨hlegal, hm⟩ := step_moves hstep
    refine ⟨?_, hm.results_of_session hs⟩
    obtain ⟨top, outer, hcons⟩ := List.exists_cons_of_ne_nil hs
    cases hr : s.env.resetLine with
    | false => exact hm.hostOps_of_session hr hcons
    | true =>
      rw [step_of_resetLine hlegal hr] at hstep
      cases hstep
      rfl

end Sys2Proof.Machine
end

section
/-! PROOFS. A record placed where the next step fetches it (log entry 8): the next step of the placed state
runs what the decoder reads from the placed stream, and a word of the opcode table is such a stream. -/
namespace Sys2Proof

/-- The spec's default parameters are ones it admits (R8, R9, R28). -/
theorem Config.legal_default : Config.default.legal := by decide

theorem decodeTableWord_eq_some {nbits w : Nat} {i : Instr} :
    decodeTableWord nbits w = some i ↔ ∃ tail, decode Config.default (tableBytes nbits w) = .record i tail := by
  rw [decodeTableWord]
  cases decode Config.default (tableBytes nbits w) <;> simp

end Sys2Proof

namespace Sys2Proof.Machine

theorem State.placeStream_cfg_of_legal {s : State} (h : s.cfg.legal) (bytes : List Byte) : (s.placeStream bytes).cfg = s.cfg :=
  if_pos h

/-- R9, R28: an illegal configuration is replaced by the default one. -/
theorem State.placeStream_cfg_legal (s : State) (bytes : List Byte) : (s.placeStream bytes).cfg.legal := by
  simp only [State.placeStream]
  split
  · assumption
  · exact Config.legal_default

/-- R108, R120: the next step runs the first record of the placed stream. The cursor is past the two bytes of the header, so what is
unread of the frame is the stream, and it is not empty because it decodes. -/
theorem step_placeStream {s : State} {bytes tail : List Byte} {i : Instr}
    (hd : decode (s.placeStream bytes).cfg bytes = .record i tail) :
    step (s.placeStream bytes) = exec i (s.placeStream bytes) := by
  have hnonempty : 0 < bytes.length := by
    cases bytes with
    | nil => cases hd
    | cons op args => exact Nat.succ_pos _
  exact step_of_record (s.placeStream_cfg_legal bytes) rfl rfl rfl rfl (Nat.add_lt_add_right hnonempty 2)
    (Context.stream_ofBytes _ 2) hd

/-- Settles O12: the default configuration is legal, so placing the word keeps it, and its bytes decode to the record of the table
word. -/
theorem placedWordRunsNext : Obligations.PlacedWordRunsNext := by
  intro s nbits w i hcfg hword
  obtain ⟨tail, hd⟩ := decodeTableWord_eq_some.1 hword
  have hkept : (s.placeStream (tableBytes nbits w)).cfg = Config.default :=
    (State.placeStream_cfg_of_legal (hcfg ▸ Config.legal_default) _).trans hcfg
  exact step_placeStream (hkept ▸ hd)

end Sys2Proof.Machine
end
